-- ==== Sys2Proof/Word.lean ====
section
/-! DEFINITION. The words of the port controller: a command is 32 bits (R80), a data, register or subscriber value is
8 bits (R9, R40), a response is 16 bits (R92), a device address is 7 bits (R9). All are unsigned, bit 0 least
significant (R12). -/

namespace Sys2Proof

/-- A command word (R80). -/
abbrev Word := BitVec 32

/-- A data value, register value, register address or subscriber id (R9, R52, R40). -/
abbrev Byte := BitVec 8

/-- A response word (R92). -/
abbrev ResponseWord := BitVec 16

/-- A 7-bit device address (R51). -/
abbrev DeviceAddress := BitVec 7

/-- The two-bit role field of a CONSTRUCT word; every value decodes (R83). -/
abbrev RoleCode := BitVec 2

/-- A poll period in milliseconds (R87). -/
abbrev Interval := BitVec 16

end Sys2Proof
end

