-- ==== Sys2Proof/Config.lean ====
section
/-! DEFINITION. What is fixed for one system before its run begins: the named parameters of R10, which the configuration
list and the implementation supply (R194), and the free values the spec leaves to the environment (R62, R173). -/

namespace Sys2Proof

/-- A sub-port of an expander (R24). -/
inductive SubPort where
  | a
  | b
  deriving DecidableEq, Repr

/-- The two roles the source names (R25). -/
inductive Role where
  | sensorInput
  | relayOutput
  deriving DecidableEq, Repr

/-- The eleven register families of the Register Map, under the short names of R19. -/
inductive Family where
  | iodir
  | ipol
  | gpinten
  | defval
  | intcon
  | iocon
  | gppu
  | intf
  | intcap
  | gpio
  | olat
  deriving DecidableEq, Repr

/-- The addresses of one register family: one for each sub-port (R56). -/
structure RegPair where
  a : Byte
  b : Byte
  deriving DecidableEq, Repr

/-- `P_REGADDR` as a table of the eleven families (R56, R57). -/
structure RegMap where
  iodir   : RegPair
  ipol    : RegPair
  gpinten : RegPair
  defval  : RegPair
  intcon  : RegPair
  iocon   : RegPair
  gppu    : RegPair
  intf    : RegPair
  intcap  : RegPair
  gpio    : RegPair
  olat    : RegPair
  deriving DecidableEq, Repr

/-- One entry of `P_PORTCFG`: the triple the host will construct an instance with (R10). The role is kept as the
two-bit code, since a configuration may name an unrecognised role (95_test_vectors.md Program 3). -/
structure PortCfg where
  deviceAddress : DeviceAddress
  subPort       : SubPort
  role          : RoleCode
  deriving DecidableEq, Repr

/-- The named parameters of R10. `P_NPORTS` is the length of `portCfg`. -/
structure Config where
  portCfg                 : List PortCfg
  regs                    : RegMap
  /-- `P_MAX_SUBSCRIBERS`; `none` is unbounded. -/
  maxSubscribers          : Option Nat
  /-- `P_EMIT_INVERT`. -/
  emitInvert              : Bool
  /-- `P_INVALID_ROLE_WRITES_CONFIG`. -/
  invalidRoleWritesConfig : Bool
  deriving DecidableEq, Repr

/-- `P_NPORTS` (R10). -/
def Config.nPorts (c : Config) : Nat := c.portCfg.length

/-- The launch premise `distinct_ports` (R196): no two entries name the same sub-port (R181). -/
def Config.DistinctPorts (c : Config) : Prop :=
  c.portCfg.Pairwise fun x y => ¬(x.deviceAddress = y.deviceAddress ∧ x.subPort = y.subPort)

/-- `P_NPORTS ≥ 1` (R10). -/
def Config.SomePort (c : Config) : Prop := 1 ≤ c.nPorts

/-- The outcome the transport oracle chooses for one transaction (R62): failure, or success with the byte a read
returns (a write that succeeds has no use for the byte). -/
inductive Answer where
  | fail
  | ok (b : Byte)
  deriving DecidableEq, Repr, Inhabited

/-- FREE VALUE. The oracle's answer where the environment's script in the state gives none: R62 places no constraint on
it. DESIGN CHOICE (assumption 4), safe: nothing can be proved of its value. -/
opaque Config.freeAnswer : Nat → Answer

/-- FREE VALUE. Which ready action goes next where the environment's script in the state names none: R173 and R146 fix
no order. DESIGN CHOICE (assumption 5), safe. -/
opaque Config.freePick : Nat → Nat

end Sys2Proof
end

