-- ==== Sys2Proof/Syntax.lean ====
section
/-! DEFINITION. The seven commands of the opcode map (R82), one constructor per row of spec/opcode_table.json, each with
the operands of its format rule (R83 to R89) at their exact widths. -/

namespace Sys2Proof

/-- A decoded command (R90). -/
inductive Instr where
  /-- `construct(deviceAddress, subPort, role)` (R83, R112). -/
  | construct (dev : DeviceAddress) (sp : SubPort) (role : RoleCode)
  /-- `readPort() -> byte` (R84, R123). -/
  | readPort
  /-- `writePort(value)` (R85, R125). -/
  | writePort (value : Byte)
  /-- `toggleRelay(pin, assert)`; `asserted` is the `assert` bit (R86, R127). -/
  | toggleRelay (pin : BitVec 4) (asserted : Bool)
  /-- `poll(intervalMillis)` (R87, R140). -/
  | pollStart (intervalMillis : Interval)
  /-- the cancellation of `poll` (R88, R142). -/
  | pollStop
  /-- registration of a callback for the `change` event (R89, R154). -/
  | subscribe (subscriberId : Byte)
  deriving DecidableEq, Repr

end Sys2Proof
end

