-- ==== Sys2Proof/WellFormed.lean ====
section
/-! DEFINITION. Two checks. `SourceCommand.fits`: a command as an assembler reads it has operands of any size, and one
that does not fit its field is refused (R96). `Instr.wellFormed`: a decoded command names only operand values its rule
does not refuse (R90: "A decoded command may still be refused by its rule for an operand value"). An `Instr` needs no
check to be encodable: its operand types have the exact widths of its fields. -/

namespace Sys2Proof

/-- A command in the assembler's syntax (R96): numbers are not yet checked against their fields. -/
inductive SourceCommand where
  | construct (dev : Nat) (sp : SubPort) (role : RoleCode)
  | readPort
  | writePort (value : Nat)
  | toggleRelay (pin : Nat) (asserted : Bool)
  | pollStart (ms : Nat)
  | pollStop
  | subscribe (id : Nat)
  deriving DecidableEq, Repr

/-- An assembler refuses an operand that does not fit its field: dev > 0x7F, value > 0xFF, pin > 15, ms > 0xFFFF,
id > 0xFF (R96). -/
def SourceCommand.fits : SourceCommand → Bool
  | .construct dev _ _ => decide (dev ≤ 0x7F)
  | .readPort => true
  | .writePort value => decide (value ≤ 0xFF)
  | .toggleRelay pin _ => decide (pin ≤ 15)
  | .pollStart ms => decide (ms ≤ 0xFFFF)
  | .pollStop => true
  | .subscribe id => decide (id ≤ 0xFF)

/-- The command names only operand values its rule accepts: a recognised role (R119), a pin in 1..8 (R128), a non-zero
interval (R141). -/
def Instr.wellFormed : Instr → Bool
  | .construct _ _ role => decide (role.toNat < 2)
  | .readPort => true
  | .writePort _ => true
  | .toggleRelay pin _ => decide (1 ≤ pin.toNat ∧ pin.toNat ≤ 8)
  | .pollStart ms => decide (ms ≠ 0)
  | .pollStop => true
  | .subscribe _ => true

end Sys2Proof
end

