-- ==== Sys2Proof/Decode.lean ====
section
/-! DEFINITION. The decoder of R90, total on every 32-bit word and rejecting by name; the encoder written from the format
rules R83 to R89; the opcode table of `match` and `mask` values (R99); and the assembler's last stage, from checked
operands to a word (R96). -/

namespace Sys2Proof

/-- Why a word is Illegal (R91): its opcode is 0x0 or 0x8 to 0xF, or a reserved bit of its command is not zero. -/
inductive IllegalReason where
  | reservedOpcode
  | reservedBits
  deriving DecidableEq, Repr

/-- What the decoder answers: a command or Illegal (R90). -/
inductive Decoded where
  | command (i : Instr)
  | illegal (why : IllegalReason)
  deriving DecidableEq, Repr

/-- `w[7]` of a CONSTRUCT word: 0 for A, 1 for B (R83). -/
def subPortOfBit (x : Bool) : SubPort := if x then .b else .a

/-- The sub-port bit of a CONSTRUCT word (R83). -/
def SubPort.toBit : SubPort → Bool
  | .a => false
  | .b => true

/-- A command whose reserved bits must all be zero (R81). -/
def whenReservedZero (reservedZero : Bool) (i : Instr) : Decoded :=
  if reservedZero then .command i else .illegal .reservedBits

/-- `decode(w)` of R90. -/
def decode (w : Word) : Decoded :=
  let op := w.extractLsb' 28 4
  if op = 0x1#4 then
    whenReservedZero (w.extractLsb' 10 18 == 0)
      (.construct (w.extractLsb' 0 7) (subPortOfBit (w.getLsbD 7)) (w.extractLsb' 8 2))
  else if op = 0x2#4 then whenReservedZero (w.extractLsb' 0 28 == 0) .readPort
  else if op = 0x3#4 then whenReservedZero (w.extractLsb' 8 20 == 0) (.writePort (w.extractLsb' 0 8))
  else if op = 0x4#4 then
    whenReservedZero (w.extractLsb' 5 23 == 0) (.toggleRelay (w.extractLsb' 0 4) (w.getLsbD 4))
  else if op = 0x5#4 then whenReservedZero (w.extractLsb' 16 12 == 0) (.pollStart (w.extractLsb' 0 16))
  else if op = 0x6#4 then whenReservedZero (w.extractLsb' 0 28 == 0) .pollStop
  else if op = 0x7#4 then whenReservedZero (w.extractLsb' 8 20 == 0) (.subscribe (w.extractLsb' 0 8))
  else .illegal .reservedOpcode

/-- An operand or opcode field whose lowest bit is bit `lo` of the word, all other bits zero (R81). -/
def place {n : Nat} (lo : Nat) (v : BitVec n) : Word := v.setWidth 32 <<< lo

/-- The word of a command: its opcode in [31:28], its operand fields, and zeros elsewhere (R83 to R89). -/
def encode : Instr → Word
  | .construct dev sp role => place 28 0x1#4 ||| place 8 role ||| place 7 (BitVec.ofBool sp.toBit) ||| place 0 dev
  | .readPort => place 28 0x2#4
  | .writePort value => place 28 0x3#4 ||| place 0 value
  | .toggleRelay pin asserted => place 28 0x4#4 ||| place 4 (BitVec.ofBool asserted) ||| place 0 pin
  | .pollStart ms => place 28 0x5#4 ||| place 0 ms
  | .pollStop => place 28 0x6#4
  | .subscribe id => place 28 0x7#4 ||| place 0 id

/-- One row of the machine-readable opcode table (R99). -/
structure OpcodeRow where
  mnemonic : String
  pattern  : Word
  mask     : Word
  deriving DecidableEq, Repr

/-- The `match` and `mask` values of R83 to R89, in the table's order. -/
def opcodeTable : List OpcodeRow :=
  [ ⟨"CONSTRUCT", 0x10000000#32, 0xFFFFFC00#32⟩
  , ⟨"READ_PORT", 0x20000000#32, 0xFFFFFFFF#32⟩
  , ⟨"WRITE_PORT", 0x30000000#32, 0xFFFFFF00#32⟩
  , ⟨"TOGGLE_RELAY", 0x40000000#32, 0xFFFFFFE0#32⟩
  , ⟨"POLL_START", 0x50000000#32, 0xFFFF0000#32⟩
  , ⟨"POLL_STOP", 0x60000000#32, 0xFFFFFFFF#32⟩
  , ⟨"SUBSCRIBE", 0x70000000#32, 0xFFFFFF00#32⟩ ]

/-- The word is one of the row's words. -/
def OpcodeRow.covers (r : OpcodeRow) (w : Word) : Bool := w &&& r.mask == r.pattern

/-- A row's command, by the name the table gives it. -/
def Instr.mnemonic : Instr → String
  | .construct _ _ _ => "CONSTRUCT"
  | .readPort => "READ_PORT"
  | .writePort _ => "WRITE_PORT"
  | .toggleRelay _ _ => "TOGGLE_RELAY"
  | .pollStart _ => "POLL_START"
  | .pollStop => "POLL_STOP"
  | .subscribe _ => "SUBSCRIBE"

/-- The command of a source line whose operands fit, refused otherwise (R96). It does not refuse pin 0, pins 9 to 15,
ms = 0 or an unrecognised role: those encode and the block refuses them. -/
def SourceCommand.toInstr (c : SourceCommand) : Option Instr :=
  if c.fits then
    some (match c with
      | .construct dev sp role => .construct (BitVec.ofNat 7 dev) sp role
      | .readPort => .readPort
      | .writePort value => .writePort (BitVec.ofNat 8 value)
      | .toggleRelay pin asserted => .toggleRelay (BitVec.ofNat 4 pin) asserted
      | .pollStart ms => .pollStart (BitVec.ofNat 16 ms)
      | .pollStop => .pollStop
      | .subscribe id => .subscribe (BitVec.ofNat 8 id))
  else none

/-- The word an assembler makes of a source line (R96). -/
def SourceCommand.assemble (c : SourceCommand) : Option Word := c.toInstr.map encode

/-- `RELAY_ON pin` (R97). -/
def SourceCommand.relayOn (pin : Nat) : SourceCommand := .toggleRelay pin true

/-- `RELAY_OFF pin` (R97). -/
def SourceCommand.relayOff (pin : Nat) : SourceCommand := .toggleRelay pin false

/-- `CONSTRUCT_SENSOR dev, sp` (R97). -/
def SourceCommand.constructSensor (dev : Nat) (sp : SubPort) : SourceCommand := .construct dev sp 0b00

/-- `CONSTRUCT_RELAY dev, sp` (R97). -/
def SourceCommand.constructRelay (dev : Nat) (sp : SubPort) : SourceCommand := .construct dev sp 0b01

/-- The command the decoder reads from a table row's bits `w` of `nbits` bits; every bit above `nbits` is zero. A command
word is given to the channel whole, so it has no byte order (R80, R54). -/
def decodeTableWord (nbits w : Nat) : Option Instr :=
  if nbits ≤ 32 then
    match decode (BitVec.ofNat 32 (w % 2 ^ nbits)) with
    | .command i => some i
    | .illegal _ => none
  else none

end Sys2Proof
end

