-- ==== Sys2Proof/Machine/RegisterMap.lean ====
section
/-! DEFINITION. The Register Map (R56, R57), the constants settled by the source (R11) and the parameter values for this
hardware (R10). -/

namespace Sys2Proof

/-- `P_REGADDR(family, subPort)`: the lookup, total over the 22 pairs and without side effect (R56, R57). -/
def RegMap.addr (m : RegMap) (f : Family) (sp : SubPort) : Byte :=
  let pair := match f with
    | .iodir => m.iodir
    | .ipol => m.ipol
    | .gpinten => m.gpinten
    | .defval => m.defval
    | .intcon => m.intcon
    | .iocon => m.iocon
    | .gppu => m.gppu
    | .intf => m.intf
    | .intcap => m.intcap
    | .gpio => m.gpio
    | .olat => m.olat
  match sp with
  | .a => pair.a
  | .b => pair.b

/-- The default table of R56: the MCP23017's layout for IOCON.BANK = 0. PRESUMED (assumption 3): the spec takes it from
general knowledge. -/
def bankZeroMap : RegMap where
  iodir   := ⟨0x00, 0x01⟩
  ipol    := ⟨0x02, 0x03⟩
  gpinten := ⟨0x04, 0x05⟩
  defval  := ⟨0x06, 0x07⟩
  intcon  := ⟨0x08, 0x09⟩
  iocon   := ⟨0x0A, 0x0B⟩
  gppu    := ⟨0x0C, 0x0D⟩
  intf    := ⟨0x0E, 0x0F⟩
  intcap  := ⟨0x10, 0x11⟩
  gpio    := ⟨0x12, 0x13⟩
  olat    := ⟨0x14, 0x15⟩

/-- `CONFIG_VALUE` (R11, R59). -/
def configValue : Byte := 0x22

/-- `SENSOR_DIRECTION` (R11). -/
def sensorDirection : Byte := 0xFF

/-- `SENSOR_PULLUP` (R11). -/
def sensorPullup : Byte := 0xFF

/-- `SENSOR_POLARITY` (R11): kept at 0x00 as the source insists (R113, 90_conflicts.md C1). -/
def sensorPolarity : Byte := 0x00

/-- `RELAY_DIRECTION` (R11). -/
def relayDirection : Byte := 0x00

/-- `RELAY_INITIAL` (R11). -/
def relayInitial : Byte := 0xFF

/-- `INITIAL_CURRENT` (R11). -/
def initialCurrent : Byte := 0xFF

/-- The parameter values for this hardware (R10). The configuration list itself is a model input the spec gives no value
for: DESIGN CHOICE (assumption 2), the two ports of 95_test_vectors.md Program 4. -/
def Config.standard : Config where
  portCfg := [⟨0x20, .a, 0b01⟩, ⟨0x20, .b, 0b00⟩]
  regs := bankZeroMap
  maxSubscribers := none
  emitInvert := false
  invalidRoleWritesConfig := true

end Sys2Proof
end

