-- ==== Sys2Proof/Machine/State.lean ====
section
/-! DEFINITION. The state of the system: the port controller instances with every field of R21, the three logs and the
response of R36, the configuration of R10, and the environment's inputs (host words, oracle answers, arbiter choices) as
plain data. -/

namespace Sys2Proof.Machine

/-- The configuration state of an instance (R28). -/
inductive Phase where
  | unconfigured
  | constructing
  | configured
  | failed
  deriving DecidableEq, Repr

/-- The status codes 0x0 to 0xB of R167; 0xC to 0xF are never produced. -/
inductive Status where
  | ok
  | invalidRole
  | transport
  | notConfigured
  | alreadyConfigured
  | portFailed
  | pinOutOfRange
  | unsupportedOnSensor
  | illegalCommand
  | invalidInterval
  | alreadyPolling
  | subscriberOverflow
  deriving DecidableEq, Repr

/-- One port controller instance: the table of R21, and the response of its last completed command (R36). A field that
holds ⊥ is `none` (R14). -/
structure Port where
  deviceAddress : Option DeviceAddress
  subPort       : Option SubPort
  role          : Option Role
  currentByte   : Option Byte
  directionByte : Option Byte
  pullupByte    : Option Byte
  polarityByte  : Option Byte
  phase         : Phase
  /-- The construction sequencer's step index, 0..3 or ⊥ (R29). -/
  seq           : Option Nat
  /-- The command being executed; busy means `cmd ≠ ⊥` (R30). -/
  cmd           : Option Word
  polling       : Bool
  interval      : Option Interval
  /-- Subscriber ids, oldest first (R33). -/
  subscribers   : List Byte
  violation     : Bool
  response      : Option ResponseWord
  deriving DecidableEq, Repr

/-- W or R of a bus-trace record (R95). -/
inductive BusKind where
  | write
  | read
  deriving DecidableEq, Repr

/-- The outcome of a transaction (R15, R95). -/
inductive BusOutcome where
  | ok
  | fail
  deriving DecidableEq, Repr

/-- A bus-trace record (R95). -/
structure BusRecord where
  port    : Nat
  kind    : BusKind
  dev     : DeviceAddress
  reg     : Byte
  value   : Option Byte
  outcome : BusOutcome
  deriving DecidableEq, Repr

/-- A change-event record (R93). -/
structure ChangeEvent where
  port      : Nat
  mask      : Byte
  levels    : Byte
  delivered : List Byte
  deriving DecidableEq, Repr

/-- An error-event record (R94). -/
structure ErrorEvent where
  port   : Nat
  status : Status
  deriving DecidableEq, Repr

/-- One call of the transport interface the block consumes (R60). -/
inductive TransportCall where
  | selectDevice (dev : DeviceAddress)
  | write (bytes : List Byte)
  | read (count : Nat)
  deriving DecidableEq, Repr

/-- A word the host gives on the command channel of one instance (R80). -/
structure Offer where
  port : Nat
  word : Word
  deriving DecidableEq, Repr

/-- The atomic steps of R7: a command step (R110), a construction step (R114), a poll tick (R148). -/
inductive Move where
  | command (port : Nat)
  | construct (port : Nat)
  | tick (port : Nat)
  deriving DecidableEq, Repr

/-- The machine. `offers`, `answers` and `plan` are what the outside world will do: they are inputs, consumed in order.
`draws` and `active` are the model's own (assumptions 4, 5, 7), and `transportReady` is the fact R194 speaks of
(assumption 24). -/
structure State where
  /-- The parameters of R10; no step writes them. -/
  cfg       : Config
  /-- The transport has been initialised (R194), which an external collaborator does; no step writes it. -/
  transportReady : Bool
  /-- `P[0..P_NPORTS-1]` (R36). -/
  ports     : List Port
  /-- Every transaction with its outcome, oldest first (R36, R66). -/
  busTrace  : List BusRecord
  /-- Every change event emitted, oldest first (R36, R156). -/
  changeLog : List ChangeEvent
  /-- Every error event, oldest first (R36, R170). -/
  errorLog  : List ErrorEvent
  /-- The index of the executing command's port controller. -/
  active    : Nat
  /-- The words the host will give, in its order for each port controller (R80). -/
  offers    : List Offer
  /-- The oracle's answers to the coming transactions (R62); past its end, free values. -/
  answers   : List Answer
  /-- The order in which ready actions go (R173); past its end, free values. -/
  plan      : List Move
  /-- How many free values have been drawn. -/
  draws     : Nat
  deriving DecidableEq, Repr

/-- The fields of R21 that may hold ⊥ and that a rule reads. -/
inductive FieldName where
  | deviceAddress
  | subPort
  | role
  | currentByte
  | seq
  | cmd
  deriving DecidableEq, Repr

/-- Why the machine stops. Neither arises from a state of the invariant (Safety.lean). -/
inductive Fault where
  /-- Raised by every operation on an instance whose index names none of the `P_NPORTS` instances. Safe: the spec has no
  such instance. -/
  | noSuchPort (index : Nat)
  /-- Raised by an operation that reads a field holding ⊥: "A model that nevertheless reaches a read of a ⊥ field must
  record a fault, never substitute a value" (R22). Safe. -/
  | unknownField (field : FieldName)
  deriving DecidableEq, Repr

/-- Why an instruction has no meaning. -/
inductive Refusal where
  /-- Raised by an arm of `exec` that has no meaning yet; no arm does. Safe. -/
  | notModelled (mnemonic : String)
  deriving DecidableEq, Repr

/-- The outcome of one meaning or step. -/
abbrev Result := Host.Outcome State Fault Refusal

/-- A freshly created, not yet constructed instance: the reset column of R21 (R41). -/
def Port.reset : Port where
  deviceAddress := none
  subPort := none
  role := none
  currentByte := none
  directionByte := none
  pullupByte := none
  polarityByte := none
  phase := .unconfigured
  seq := none
  cmd := none
  polling := false
  interval := none
  subscribers := []
  violation := false
  response := none

/-- The start of a run under a configuration: every instance reset, the three logs empty (R190, R41), and no input from
the environment yet. That the transport is initialised by then is a DESIGN CHOICE (assumption 24). -/
def State.boot (c : Config) : State where
  cfg := c
  transportReady := true
  ports := List.replicate c.nPorts Port.reset
  busTrace := []
  changeLog := []
  errorLog := []
  active := 0
  offers := []
  answers := []
  plan := []
  draws := 0

/-- Block reset under the parameter values for this hardware (R190, R10). -/
def State.reset : State := State.boot Config.standard

end Sys2Proof.Machine
end

