-- ==== Sys2Proof/Machine/Flags.lean ====
section
/-! DEFINITION. The block's status-like state (R35): busy, the status codes and their effect on `violation` (R167, R168),
and the response word (R92). There are no arithmetic flags. -/

namespace Sys2Proof.Machine

/-- Response bits [15:12] (R167). -/
def Status.code : Status → BitVec 4
  | .ok => 0x0
  | .invalidRole => 0x1
  | .transport => 0x2
  | .notConfigured => 0x3
  | .alreadyConfigured => 0x4
  | .portFailed => 0x5
  | .pinOutOfRange => 0x6
  | .unsupportedOnSensor => 0x7
  | .illegalCommand => 0x8
  | .invalidInterval => 0x9
  | .alreadyPolling => 0xA
  | .subscriberOverflow => 0xB

/-- The last column of R167: the statuses that mark the host outside the source's contract (R168). -/
def Status.setsViolation : Status → Bool
  | .ok | .invalidRole | .transport => false
  | .notConfigured | .alreadyConfigured | .portFailed | .pinOutOfRange | .unsupportedOnSensor | .illegalCommand
  | .invalidInterval | .alreadyPolling | .subscriberOverflow => true

/-- The response word: status in [15:12], zeros in [11:8], data in [7:0] (R92). -/
def responseWord (st : Status) (data : Byte) : ResponseWord := st.code.setWidth 16 <<< 12 ||| data.setWidth 16

/-- The status field of a response word (R92). -/
def responseStatus (r : ResponseWord) : BitVec 4 := r.extractLsb' 12 4

/-- The data field of a response word (R92). -/
def responseData (r : ResponseWord) : Byte := r.extractLsb' 0 8

/-- Busy means `cmd ≠ ⊥` (R30). -/
def Port.busy (P : Port) : Bool := P.cmd.isSome

/-- `violation` after a response of status `st`: set by the statuses of R168, never cleared. -/
def violationAfter (old : Bool) (st : Status) : Bool := old || st.setsViolation

end Sys2Proof.Machine
end

