-- ==== Sys2Proof/Machine/Codec.lean ====
section
/-! DEFINITION. The Bit Codec: two pure functions on a byte seen as eight one-bit lanes (R100 to R107), and the change set
they represent (R93). -/

namespace Sys2Proof.Machine

/-- `setBit(b, i, x)` (R100). -/
def setBit (b : Byte) (i : Fin 8) (x : Bool) : Byte :=
  if x then b ||| (1#8 <<< i.val) else b &&& ~~~(1#8 <<< i.val)

/-- A change set as the pair of bytes of R103. -/
structure ChangeSet where
  mask   : Byte
  levels : Byte
  deriving DecidableEq, Repr

/-- `diffBytes(new, old)` (R103). -/
def diffBytes (new old : Byte) : ChangeSet :=
  let mask := new ^^^ old
  ⟨mask, new &&& mask⟩

/-- The number of 1 bits of a byte (R13). -/
def popcount (b : Byte) : Nat := ((List.range 8).filter b.getLsbD).length

/-- The mapping from 1-based pin index to new level that a mask and levels represent, in pin order (R93, R103). -/
def changeEntries (mask levels : Byte) : List (Nat × Bool) :=
  ((List.range 8).filter mask.getLsbD).map fun i => (i + 1, levels.getLsbD i)

/-- The source's Change Event (R93). -/
def ChangeEvent.entries (e : ChangeEvent) : List (Nat × Bool) := changeEntries e.mask e.levels

/-- The levels a tick emits: the new bits, or their inverses under `P_EMIT_INVERT` (R148, R10). -/
def emittedLevels (invert : Bool) (new : Byte) (d : ChangeSet) : Byte :=
  if invert then ~~~new &&& d.mask else d.levels

end Sys2Proof.Machine
end

