-- ==== Sys2Proof/Machine/Operands.lean ====
section
/-! DEFINITION. The operand forms of the commands: the pin index (R53, R102), the active-low assert bit (R127), the role
code (R83, R116), the interval (R141), and the construction program a role code names (R113). -/

namespace Sys2Proof.Machine

/-- The bit index of a pin: `p - 1` for 1 ≤ p ≤ 8; the other field values name no pin (R102, R128). -/
def pinIndex (pin : BitVec 4) : Option (Fin 8) :=
  if h : 1 ≤ pin.toNat ∧ pin.toNat ≤ 8 then some ⟨pin.toNat - 1, by omega⟩ else none

/-- `assert = true` is bit value 0 and `assert = false` is bit value 1 (R127). -/
def relayBit (asserted : Bool) : Bool := !asserted

/-- The role a code names; 0b10 and 0b11 are unrecognised (R83). -/
def roleOf (code : RoleCode) : Option Role :=
  if code = 0b00#2 then some .sensorInput
  else if code = 0b01#2 then some .relayOutput
  else none

/-- `w[9:8]`, the role field of a CONSTRUCT word (R83, R114). -/
def roleField (w : Word) : RoleCode := w.extractLsb' 8 2

/-- `prog(role)` (R113). -/
def prog (c : Config) (code : RoleCode) : List (Family × Byte) :=
  match roleOf code with
  | some .sensorInput =>
    [(.iocon, configValue), (.iodir, sensorDirection), (.gppu, sensorPullup), (.ipol, sensorPolarity)]
  | some .relayOutput => [(.iocon, configValue), (.iodir, relayDirection), (.gpio, relayInitial)]
  | none => if c.invalidRoleWritesConfig then [(.iocon, configValue)] else []

/-- The subscriber list is bounded and at its capacity (R154). -/
def atCapacity (c : Config) (subscribers : List Byte) : Bool :=
  match c.maxSubscribers with
  | none => false
  | some n => subscribers.length == n

end Sys2Proof.Machine
end

