-- ==== Sys2Proof/Machine/Ops.lean ====
section
/-! DEFINITION. The operations every command and tick is written with: reading and writing an instance's fields (R14,
R22), completing a command and raising an error (R92, R166), and the transactions on the transport (R15, R60 to R62). -/

namespace Sys2Proof.Machine

/-! ### State access -/

/-- The instance of an index. -/
def State.port? (s : State) (p : Nat) : Option Port := s.ports[p]?

/-- The state with an instance's fields replaced. -/
def State.setPort (s : State) (p : Nat) (P : Port) : State := { s with ports := s.ports.set p P }

/-- Runs `k` on the instance of an index. -/
def State.withPort (s : State) (p : Nat) (k : Port → Result) : Result :=
  match s.port? p with
  | some P => k P
  | none => .fault (.noSuchPort p)

/-- Reads a field that may hold ⊥: a fault if it does (R22). -/
def need {α : Type} (field : FieldName) (value : Option α) (k : α → Result) : Result :=
  match value with
  | some x => k x
  | none => .fault (.unknownField field)

/-! ### Completing a command -/

/-- `Respond(status, data)` on the instance: the response word is written, `cmd <- ⊥` (R92), and `violation` is set if
the status says so (R168). -/
def Port.respond (P : Port) (st : Status) (data : Byte) : Port :=
  { P with
    response := some (responseWord st data)
    cmd := none
    violation := violationAfter P.violation st }

/-- `Respond(status, data)` of instance `p`, whose fields are now `P`. -/
def State.respond (s : State) (p : Nat) (P : Port) (st : Status) (data : Byte) : Result :=
  .next (s.setPort p (P.respond st data))

/-- `raise S`: the one way an error ends a command, `Respond(S, 0x00)`; every field written before keeps its value (R166).
The block has no trap, no saved program counter and no return from error (R165, R175). -/
def State.raise (s : State) (p : Nat) (P : Port) (st : Status) : Result := s.respond p P st 0x00

/-- The checks every command but CONSTRUCT begins with, in the order of R172: PORT_FAILED, then NOT_CONFIGURED. -/
def State.requireConfigured (s : State) (p : Nat) (P : Port) (k : Result) : Result :=
  match P.phase with
  | .failed => s.raise p P .portFailed
  | .unconfigured => s.raise p P .notConfigured
  | .constructing | .configured => k

/-! ### Transactions -/

/-- What the oracle chooses for the next transaction: the environment's script, then free values (R62). -/
def State.oracleChoice (s : State) : Answer :=
  match s.answers with
  | a :: _ => a
  | [] => Config.freeAnswer s.draws

/-- The answer to the next transaction: the oracle's choice, or `fail` on a transport that is not initialised (R194). -/
def State.nextAnswer (s : State) : Answer := if s.transportReady then s.oracleChoice else .fail

/-- The state once the oracle has answered. -/
def State.dropAnswer (s : State) : State :=
  match s.answers with
  | _ :: rest => { s with answers := rest }
  | [] => { s with draws := s.draws + 1 }

/-- The state once the oracle has answered and the bus trace holds the transaction's record (R95, R66). -/
def State.record (s : State) (r : BusRecord) : State :=
  { s.dropAnswer with busTrace := s.busTrace ++ [r] }

/-- The outcome of a write transaction the oracle answers (R62). -/
def busOutcome : Answer → BusOutcome
  | .ok _ => .ok
  | .fail => .fail

/-- The byte of a read transaction the oracle answers, or ⊥ (R95). -/
def busByte : Answer → Option Byte
  | .ok b => some b
  | .fail => none

/-- `RegWrite(dev, reg, v)` issued by instance `p`: its outcome, and the state after it (R15, R61). -/
def State.regWrite (s : State) (p : Nat) (dev : DeviceAddress) (reg v : Byte) : BusOutcome × State :=
  (busOutcome s.nextAnswer, s.record ⟨p, .write, dev, reg, some v, busOutcome s.nextAnswer⟩)

/-- `RegRead(dev, reg)` issued by instance `p`: its answer, and the state after it (R15, R61). -/
def State.regRead (s : State) (p : Nat) (dev : DeviceAddress) (reg : Byte) : Answer × State :=
  (s.nextAnswer, s.record ⟨p, .read, dev, reg, busByte s.nextAnswer, busOutcome s.nextAnswer⟩)

/-- The device and the register address of instance `P`'s family `f`: `P.deviceAddress` and
`P_REGADDR(f, P.subPort)` (R23, R24). -/
def State.locate (s : State) (P : Port) (f : Family) (k : DeviceAddress → Byte → Result) : Result :=
  need .deviceAddress P.deviceAddress fun dev =>
    need .subPort P.subPort fun sp => k dev (s.cfg.regs.addr f sp)

/-- The transport calls of `RegWrite` (R60): the device is selected afresh, then the register address and the value are
sent, in that order (R54). -/
def regWriteCalls (dev : DeviceAddress) (reg v : Byte) : List TransportCall :=
  [.selectDevice dev, .write [reg, v]]

/-- The transport calls of `RegRead` (R60). -/
def regReadCalls (dev : DeviceAddress) (reg : Byte) : List TransportCall :=
  [.selectDevice dev, .write [reg], .read 1]

/-- The transport calls of a recorded transaction (R60). Which of them failed, when one did, is not recorded (R62). -/
def BusRecord.calls (r : BusRecord) : List TransportCall :=
  match r.kind, r.value with
  | .write, some v => regWriteCalls r.dev r.reg v
  | .write, none => [.selectDevice r.dev]
  | .read, _ => regReadCalls r.dev r.reg

/-! ### Events -/

/-- `Emit(P, mask, levels)`: delivery to the subscribers registered at this moment, in their order (R156). -/
def State.emit (s : State) (p : Nat) (P : Port) (mask levels : Byte) : State :=
  { s with changeLog := s.changeLog ++ [⟨p, mask, levels, P.subscribers⟩] }

/-- `ReportError(P, S)` (R170). -/
def State.reportError (s : State) (p : Nat) (st : Status) : State :=
  { s with errorLog := s.errorLog ++ [⟨p, st⟩] }

end Sys2Proof.Machine
end

