-- ==== Sys2Proof/Machine/Notifier.lean ====
section
/-! DEFINITION. The Change Notifier's registration (42_poll_notify.md, section 3). Its delivery is `State.emit`, which the
tick calls (R156). -/

namespace Sys2Proof.Machine

/-- SUBSCRIBE (R154, R155). -/
def execSubscribe (id : Byte) (s : State) : Result :=
  s.withPort s.active fun P =>
    s.requireConfigured s.active P <|
      if atCapacity s.cfg P.subscribers then s.raise s.active P .subscriberOverflow
      else s.respond s.active { P with subscribers := P.subscribers ++ [id] } .ok 0x00

end Sys2Proof.Machine
end

