-- ==== Sys2Proof/Machine/Polling.lean ====
section
/-! DEFINITION. Polling (42_poll_notify.md, sections 1 and 2): POLL_START, POLL_STOP and the poll tick, the per-byte change
detector. -/

namespace Sys2Proof.Machine

/-- POLL_START (R140, R141). -/
def execPollStart (ms : Interval) (s : State) : Result :=
  s.withPort s.active fun P =>
    s.requireConfigured s.active P <|
      if ms = 0 then s.raise s.active P .invalidInterval
      else if P.polling then s.raise s.active P .alreadyPolling
      else s.respond s.active { P with interval := some ms, polling := true } .ok 0x00

/-- POLL_STOP (R142, R143): `interval` is left as it was. -/
def execPollStop (s : State) : Result :=
  s.withPort s.active fun P =>
    s.requireConfigured s.active P <|
      s.respond s.active { P with polling := false } .ok 0x00

/-- A tick is enabled exactly when the instance is CONFIGURED, polling and idle (R146). -/
def Port.tickEnabled (P : Port) : Bool :=
  P.phase == .configured && P.polling && !P.busy

/-- TICK of instance `p` (R148 to R151). Outside its enabling condition it does nothing. -/
def tick (p : Nat) (s : State) : Result :=
  s.withPort p fun P =>
    if P.tickEnabled then
      need .currentByte P.currentByte fun old =>
        s.locate P .gpio fun dev reg =>
          match s.regRead p dev reg with
          | (.fail, s') => .next (s'.reportError p .transport)
          | (.ok b, s') =>
            let s'' := s'.setPort p { P with currentByte := some b }
            let d := diffBytes b old
            if d.mask = 0x00 then .next s''
            else .next (s''.emit p P d.mask (emittedLevels s.cfg.emitInvert b d))
    else .next s

end Sys2Proof.Machine
end

