-- ==== Sys2Proof/Machine/PortDriver.lean ====
section
/-! DEFINITION. The Port Driver (41_port_commands.md): CONSTRUCT and the construction sequencer, READ_PORT, WRITE_PORT and
TOGGLE_RELAY. -/

namespace Sys2Proof.Machine

/-! ### Construction -/

/-- `finish(role)`: CONFIGURED and OK for a recognised role (R121), FAILED and INVALID_ROLE otherwise (R119). -/
def State.finishConstruction (s : State) (p : Nat) (P : Port) (code : RoleCode) : Result :=
  match roleOf code with
  | some _ => s.respond p { P with phase := .configured, seq := none } .ok 0x00
  | none => s.raise p { P with phase := .failed, seq := none } .invalidRole

/-- CONSTRUCT (R112): acceptance, or a refusal. -/
def execConstruct (dev : DeviceAddress) (sp : SubPort) (code : RoleCode) (s : State) : Result :=
  s.withPort s.active fun P =>
    match P.phase with
    | .failed => s.raise s.active P .portFailed
    | .configured => s.raise s.active P .alreadyConfigured
    | .unconfigured | .constructing =>
      let P' := { P with deviceAddress := some dev, subPort := some sp, phase := .constructing, seq := some 0 }
      if (prog s.cfg code).length = 0 then s.finishConstruction s.active P' code
      else .next (s.setPort s.active P')

/-- `apply(fam, v)`: the shadow update after a successful construction write (R115). -/
def Port.applyWrite (P : Port) (f : Family) (v : Byte) : Port :=
  match f with
  | .iodir => { P with directionByte := some v }
  | .gppu => { P with pullupByte := some v }
  | .ipol => { P with polarityByte := some v }
  | .gpio => { P with currentByte := some v }
  | .iocon | .gpinten | .defval | .intcon | .intf | .intcap | .olat => P

/-- `dispatch(role)`: the role dispatch that follows step 0 (R116). -/
def Port.dispatchRole (P : Port) (code : RoleCode) : Port :=
  match roleOf code with
  | some .sensorInput => { P with role := some .sensorInput, currentByte := some initialCurrent }
  | some .relayOutput => { P with role := some .relayOutput }
  | none => P

/-- What a successful construction write of step `k` leaves in the instance: the shadow update, the role dispatch after
step 0, and the advanced step index (R114). -/
def Port.afterConstructionWrite (P : Port) (code : RoleCode) (k : Nat) (f : Family) (v : Byte) : Port :=
  let P' := P.applyWrite f v
  let P'' := if k = 0 then P'.dispatchRole code else P'
  { P'' with seq := some (k + 1) }

/-- The sequencer may step: CONSTRUCTING with `seq` below the program's length (R114). If one of the fields it reads is ⊥
it counts as enabled, and the step records the fault of R22 (assumption 11). -/
def Port.sequencerEnabled (c : Config) (P : Port) : Bool :=
  P.phase == .constructing &&
    match P.seq, P.cmd with
    | some k, some w => decide (k < (prog c (roleField w)).length)
    | _, _ => true

/-- A construction step of instance `p` (R114, R120, R121): one transaction and the updates attached to it. Outside its
enabling condition it does nothing. -/
def constructionStep (p : Nat) (s : State) : Result :=
  s.withPort p fun P =>
    if P.sequencerEnabled s.cfg then
      need .cmd P.cmd fun w =>
        need .seq P.seq fun k =>
          match (prog s.cfg (roleField w))[k]? with
          | none => .next s
          | some (f, v) =>
            s.locate P f fun dev reg =>
              match s.regWrite p dev reg v with
              | (.fail, s') => s'.raise p { P with phase := .failed, seq := none } .transport
              | (.ok, s') =>
                let P' := P.afterConstructionWrite (roleField w) k f v
                if k + 1 = (prog s.cfg (roleField w)).length then s'.finishConstruction p P' (roleField w)
                else .next (s'.setPort p P')
    else .next s

/-! ### Data commands -/

/-- READ_PORT (R123). -/
def execReadPort (s : State) : Result :=
  s.withPort s.active fun P =>
    s.requireConfigured s.active P <|
      s.locate P .gpio fun dev reg =>
        match s.regRead s.active dev reg with
        | (.fail, s') => s'.raise s.active P .transport
        | (.ok b, s') => s'.respond s.active { P with currentByte := some b } .ok b

/-- One write of the GPIO register and of `currentByte`, completing the command: the body of WRITE_PORT, which
TOGGLE_RELAY shares (R125, R127). -/
def State.writeGpio (s : State) (p : Nat) (P : Port) (v : Byte) : Result :=
  s.locate P .gpio fun dev reg =>
    match s.regWrite p dev reg v with
    | (.fail, s') => s'.raise p P .transport
    | (.ok, s') => s'.respond p { P with currentByte := some v } .ok 0x00

/-- WRITE_PORT (R125). -/
def execWritePort (value : Byte) (s : State) : Result :=
  s.withPort s.active fun P =>
    s.requireConfigured s.active P (s.writeGpio s.active P value)

/-- TOGGLE_RELAY (R127, R128): the operand check, the role check, then a read-modify-write of the cached byte (R69). -/
def execToggleRelay (pin : BitVec 4) (asserted : Bool) (s : State) : Result :=
  s.withPort s.active fun P =>
    s.requireConfigured s.active P <|
      match pinIndex pin with
      | none => s.raise s.active P .pinOutOfRange
      | some i =>
        need .role P.role fun role =>
          match role with
          | .sensorInput => s.raise s.active P .unsupportedOnSensor
          | .relayOutput =>
            need .currentByte P.currentByte fun b =>
              s.writeGpio s.active P (setBit b i (relayBit asserted))

end Sys2Proof.Machine
end

