-- ==== Sys2Proof/Machine/Dispatch.lean ====
section
/-! DEFINITION. What a decoded command does to the executing instance (R110): one meaning per command. -/

namespace Sys2Proof.Machine

def exec (i : Instr) (s : State) : Host.Outcome State Fault Refusal :=
  match i with
  | .construct dev sp role => Sys2Proof.Machine.execConstruct dev sp role s
  | .readPort => Sys2Proof.Machine.execReadPort s
  | .writePort value => Sys2Proof.Machine.execWritePort value s
  | .toggleRelay pin asserted => Sys2Proof.Machine.execToggleRelay pin asserted s
  | .pollStart intervalMillis => Sys2Proof.Machine.execPollStart intervalMillis s
  | .pollStop => Sys2Proof.Machine.execPollStop s
  | .subscribe subscriberId => Sys2Proof.Machine.execSubscribe subscriberId s

end Sys2Proof.Machine
end

