-- ==== Sys2Proof/Machine/Arbiter.lean ====
section
/-! DEFINITION. Which atomic step runs next, and running it (R7, R110, R146, R173): the readiness of each action, the
arbiter's choice, the command step, and the place a program's words are given. -/

namespace Sys2Proof.Machine

/-- The word the host is offering instance `p`: the oldest it has not given yet (R80). -/
def State.offered (s : State) (p : Nat) : Option Word :=
  (s.offers.find? fun o => o.port == p).map Offer.word

/-- Whether an action can go: a command needs an idle instance and an offered word (R111), a construction step its
enabling condition (R114), a tick its own (R146). -/
def State.ready (s : State) (a : Move) : Bool :=
  match a with
  | .command p =>
    match s.port? p with
    | some P => !P.busy && (s.offered p).isSome
    | none => false
  | .construct p =>
    match s.port? p with
    | some P => P.sequencerEnabled s.cfg
    | none => false
  | .tick p =>
    match s.port? p with
    | some P => P.tickEnabled
    | none => false

/-- Every action that can go, instance by instance. -/
def State.readyMoves (s : State) : List Move :=
  ((List.range s.ports.length).flatMap fun p => [Move.command p, .construct p, .tick p]).filter s.ready

/-- The arbiter's choice (R173: "the order is not fixed and has no priority"), and the state once it is made: the next
entry of the environment's plan if it is ready, else the only ready action, else a free pick among the ready ones. `none`
if nothing is ready. -/
def State.arbitrate (s : State) : Option (Move × State) :=
  match s.plan.head?.filter s.ready with
  | some a => some (a, { s with plan := s.plan.tail })
  | none =>
    match s.readyMoves with
    | [] => none
    | [a] => some (a, { s with plan := s.plan.tail })
    | a :: b :: rest =>
      let all := a :: b :: rest
      some (all.getD (Config.freePick s.draws % all.length) a,
        { s with plan := s.plan.tail, draws := s.draws + 1 })

/-- The first half of a command step (R110): the word is taken from the host and is the instance's `cmd`. -/
def State.accept (s : State) (p : Nat) (P : Port) (w : Word) : State :=
  { s with
    active := p
    offers := s.offers.eraseP fun o => o.port == p
    ports := s.ports.set p { P with cmd := some w } }

/-- A command step of instance `p` (R110): accept the word, decode it, raise ILLEGAL_COMMAND or execute it. Without an
offered word it does nothing. -/
def commandStep (p : Nat) (s : State) : Result :=
  s.withPort p fun P =>
    match s.offered p with
    | none => .next s
    | some w =>
      let s' := s.accept p P w
      match decode w with
      | .illegal _ => s'.withPort p fun P' => s'.raise p P' .illegalCommand
      | .command i => exec i s'

/-- One atomic step (R7). -/
def perform (a : Move) (s : State) : Result :=
  match a with
  | .command p => commandStep p s
  | .construct p => constructionStep p s
  | .tick p => tick p s

/-- The machine's step: the arbiter's action, or, when nothing is ready, waiting (R192). -/
def takeTurn (s : State) : Result :=
  match s.arbitrate with
  | none => .next s
  | some (a, s') => perform a s'

/-- The first idle instance; 0 if none is. -/
def State.firstIdle (s : State) : Nat :=
  let i := s.ports.findIdx fun P => !P.busy
  if i < s.ports.length then i else 0

/-- The host gives instance `p` a word next and the arbiter lets its command step go first. -/
def State.offerFirst (s : State) (p : Nat) (w : Word) : State :=
  { s with offers := ⟨p, w⟩ :: s.offers, plan := .command p :: s.plan }

end Sys2Proof.Machine
end

