-- ==== Sys2Proof/Machine/Step.lean ====
section
/-! DEFINITION. The step of the system, and where the word it runs next is given. -/

namespace Sys2Proof.Machine

/-- One atomic step of the system (R7). -/
def step (s : State) : Host.Outcome State Fault Refusal := takeTurn s

/-- `s` with the host giving the word `w` of `nbits` bits to the first idle instance next, before anything else goes.
The block fetches nothing: commands arrive on the command channel (R70, R80). -/
def State.withFetchWord (s : State) (nbits w : Nat) : State :=
  s.offerFirst s.firstIdle (BitVec.ofNat 32 (w % 2 ^ nbits))

end Sys2Proof.Machine
end

