-- ==== Sys2Proof/Machine/Assembler.lean ====
section
/-! DEFINITION. The assembler's text form (R96, R97): one command on a line, operands separated by commas, numbers decimal
or `0x` hexadecimal. Blanks around the mnemonic and around an operand are skipped and names are upper case (assumption
19). A line is its list of characters. -/

namespace Sys2Proof.Machine

/-- The sixteen digits, each at the place of its value; decimal uses the first ten. -/
def digits : List Char := "0123456789ABCDEF".toList

/-- The number a text writes in a base, its letters of either case; refused if the text is empty or holds anything but
digits of the base. -/
def readBase (base : Nat) (text : List Char) : Option Nat :=
  let places := text.map fun c => digits.idxOf c.toUpper
  if places.isEmpty ∨ places.any (base ≤ ·) then none
  else some (places.foldl (fun n d => base * n + d) 0)

/-- A number in decimal or `0x` hexadecimal (R96). -/
def parseNumber (text : List Char) : Option Nat :=
  if text.take 2 = ['0', 'x'] then readBase 16 (text.drop 2) else readBase 10 text

/-- The text with the blanks at both its ends dropped. -/
def trimBlanks (t : List Char) : List Char :=
  ((t.dropWhile (· == ' ')).reverse.dropWhile (· == ' ')).reverse

/-- The operands of a text, separated by commas; an empty text has none. -/
def operandsOf (t : List Char) : List (List Char) :=
  let parts := t.foldr (fun c acc =>
    match acc with
    | [] => if c == ',' then [[], []] else [[c]]
    | p :: ps => if c == ',' then [] :: p :: ps else (c :: p) :: ps) []
  parts.map trimBlanks

/-- `A` or `B` (R96). -/
def parseSubPort (t : List Char) : Option SubPort :=
  if t = ['A'] then some .a else if t = ['B'] then some .b else none

/-- `SENSOR`, `RELAY`, `ROLE2` or `ROLE3`: role codes 0 to 3 (R96). -/
def parseRole (t : List Char) : Option RoleCode :=
  if t = "SENSOR".toList then some 0b00
  else if t = "RELAY".toList then some 0b01
  else if t = "ROLE2".toList then some 0b10
  else if t = "ROLE3".toList then some 0b11
  else none

/-- `1` or `0`, the assert operand (R96). -/
def parseAssert (t : List Char) : Option Bool :=
  if t = ['1'] then some true else if t = ['0'] then some false else none

/-- The source command of a mnemonic and its operands: the syntax table of R96 and the pseudo-commands of R97. -/
def parseCommand (name : List Char) (operands : List (List Char)) : Option SourceCommand :=
  match operands with
  | [] =>
    if name = "READ_PORT".toList then some .readPort
    else if name = "POLL_STOP".toList then some .pollStop
    else none
  | [x] =>
    if name = "WRITE_PORT".toList then (parseNumber x).map .writePort
    else if name = "POLL_START".toList then (parseNumber x).map .pollStart
    else if name = "SUBSCRIBE".toList then (parseNumber x).map .subscribe
    else if name = "RELAY_ON".toList then (parseNumber x).map .relayOn
    else if name = "RELAY_OFF".toList then (parseNumber x).map .relayOff
    else none
  | [x, y] =>
    if name = "TOGGLE_RELAY".toList then
      (parseNumber x).bind fun pin => (parseAssert y).map fun on => .toggleRelay pin on
    else if name = "CONSTRUCT_SENSOR".toList then
      (parseNumber x).bind fun dev => (parseSubPort y).map fun sp => .constructSensor dev sp
    else if name = "CONSTRUCT_RELAY".toList then
      (parseNumber x).bind fun dev => (parseSubPort y).map fun sp => .constructRelay dev sp
    else none
  | [x, y, z] =>
    if name = "CONSTRUCT".toList then
      (parseNumber x).bind fun dev => (parseSubPort y).bind fun sp => (parseRole z).map fun r => .construct dev sp r
    else none
  | _ => none

/-- One line of assembler text. -/
def parseLine (line : List Char) : Option SourceCommand :=
  let t := trimBlanks line
  parseCommand (t.takeWhile (· != ' ')) (operandsOf (trimBlanks (t.dropWhile (· != ' '))))

/-- The word of one line of assembler text; refused if the line is no command or an operand does not fit (R96). -/
def assembleLine (line : List Char) : Option Word := (parseLine line).bind SourceCommand.assemble

end Sys2Proof.Machine
end

