-- ==== Sys2Proof/Safety.lean ====
section
/-! DEFINITION. What a safe state and a safe run are: the invariant of one instance and of the system, the launch premises
of R196, and weakly fair runs (R147, R173). -/

namespace Sys2Proof.Machine

/-! ### The invariant -/

/-- The state of one instance between steps, phase by phase (R21, R27 to R33, R113 to R121, R140 to R142, R154). -/
structure Port.Inv (c : Config) (P : Port) : Prop where
  /-- Before construction no field has a value (R41). -/
  unconfigured : P.phase = .unconfigured →
    P.deviceAddress = none ∧ P.subPort = none ∧ P.role = none ∧ P.currentByte = none ∧ P.directionByte = none ∧
      P.pullupByte = none ∧ P.polarityByte = none
  /-- Construction step `k` is next, and the fields are what the steps before it left (R113 to R116). -/
  constructing : P.phase = .constructing →
    ∃ w dev sp code k, P.cmd = some w ∧ decode w = .command (.construct dev sp code) ∧
      P.deviceAddress = some dev ∧ P.subPort = some sp ∧ P.seq = some k ∧ k < (prog c code).length ∧
      P.role = (if k = 0 then none else roleOf code) ∧
      P.currentByte = (if k ≠ 0 ∧ roleOf code = some .sensorInput then some initialCurrent else none) ∧
      P.directionByte = (if k ≤ 1 then none
        else if roleOf code = some .sensorInput then some sensorDirection else some relayDirection) ∧
      P.pullupByte = (if k ≤ 2 then none else some sensorPullup) ∧ P.polarityByte = none
  /-- A sensor keeps the configuration R117 gives it, a relay that of R118; the cached byte has a value. -/
  configured : P.phase = .configured →
    P.deviceAddress ≠ none ∧ P.subPort ≠ none ∧ P.currentByte ≠ none ∧
      (P.role = some .sensorInput ∧ P.directionByte = some sensorDirection ∧ P.pullupByte = some sensorPullup ∧
          P.polarityByte = some sensorPolarity ∨
        P.role = some .relayOutput ∧ P.directionByte = some relayDirection ∧ P.pullupByte = none ∧
          P.polarityByte = none)
  /-- `seq` is ⊥ outside CONSTRUCTING (R29). -/
  seqOutside : P.phase ≠ .constructing → P.seq = none
  /-- Busy between steps is CONSTRUCTING (R30, R110). -/
  idleOutside : P.phase ≠ .constructing → P.cmd = none
  /-- Only a CONFIGURED instance polls, has an interval or has subscribers (R140, R154). -/
  quietOutside : P.phase ≠ .configured → P.polling = false ∧ P.interval = none ∧ P.subscribers = []
  /-- The interval of a polling instance is known (R140). -/
  pollingInterval : P.polling = true → P.interval ≠ none
  /-- The interval is never 0 (R32, R141). -/
  intervalNonzero : P.interval ≠ some 0
  /-- The list never outgrows a capacity (R154). -/
  withinCapacity : ∀ n, c.maxSubscribers = some n → P.subscribers.length ≤ n
  /-- A response holds a status of R167, and data only with OK (R92); a status of R168 has set `violation`. -/
  responseForm : ∀ r, P.response = some r →
    ∃ st data, r = responseWord st data ∧ (st ≠ .ok → data = 0x00) ∧ (st.setsViolation = true → P.violation = true)

/-- A bus record the block can have made: a write of one of its five families, or a read of GPIO (R58), with a value
exactly as R95 says. -/
def BusRecord.Allowed (c : Config) (r : BusRecord) : Prop :=
  match r.kind with
  | .write => r.value ≠ none ∧
      ∃ f sp, (f = .iocon ∨ f = .iodir ∨ f = .gppu ∨ f = .ipol ∨ f = .gpio) ∧ r.reg = c.regs.addr f sp
  | .read => (r.value ≠ none ↔ r.outcome = .ok) ∧ ∃ sp, r.reg = c.regs.addr .gpio sp

/-- The state of the system between steps. -/
structure State.Inv (s : State) : Prop where
  ports : ∀ P ∈ s.ports, P.Inv s.cfg
  count : s.ports.length = s.cfg.nPorts
  busTrace : ∀ r ∈ s.busTrace, r.Allowed s.cfg ∧ r.port < s.ports.length
  /-- Every logged change event has a non-zero mask (R151) and levels inside it (R93). -/
  changeLog : ∀ e ∈ s.changeLog, e.mask ≠ 0x00 ∧ e.levels &&& ~~~e.mask = 0x00 ∧ e.port < s.ports.length
  /-- The error-event log holds tick failures only (R94). -/
  errorLog : ∀ e ∈ s.errorLog, e.status = .transport ∧ e.port < s.ports.length

/-- A step from `s` stops neither with a fault nor with a refusal. -/
def State.StepsOn (s : State) : Prop := ∃ t, step s = .next t

/-! ### Launch premises (R196). (b) `distinct_ports` is `Config.DistinctPorts`. -/

/-- (a) `reset`: every instance is in its reset state and the three logs are empty. -/
def State.AtReset (s : State) : Prop :=
  s.ports = List.replicate s.cfg.nPorts Port.reset ∧ s.busTrace = [] ∧ s.changeLog = [] ∧ s.errorLog = []

/-- (c) `transport_ready`: the transport was initialised (R194). No step changes it (OtherInstancesUntouched), so to hold
at launch is to hold throughout. It does not say that a transaction succeeds. -/
abbrev State.TransportReady (s : State) : Prop := s.transportReady = true

/-- A run: each state steps to the next (R190: it begins at a reset and has no reset inside). -/
def IsRun (run : Nat → State) : Prop := ∀ n, step (run n) = .next (run (n + 1))

/-- (d) `no_violation`: no instance has `violation` set at any point of the run (R185). -/
def NoViolation (run : Nat → State) : Prop := ∀ n, ∀ P ∈ (run n).ports, P.violation = false

/-- (e) `reliable_bus`, the optional premise: no transaction fails. -/
def ReliableBus (run : Nat → State) : Prop := ∀ n, ∀ r ∈ (run n).busTrace, r.outcome = .ok

/-- The instance a move belongs to. -/
def Move.port : Move → Nat
  | .command p => p
  | .construct p => p
  | .tick p => p

/-- The action the arbiter takes from `s`. -/
def State.chosen (s : State) : Option Move := s.arbitrate.map Prod.fst

/-- Some action of instance `p` is ready. -/
def State.instanceReady (s : State) (p : Nat) : Prop := ∃ a : Move, a.port = p ∧ s.ready a = true

/-- Weak fairness, per instance as R173 has it (an instance that stays ready eventually goes) and per tick as R147 has it (a
tick that stays enabled eventually runs). Neither rule promises it of a command that its own instance's ticks pass over
for ever, and neither does this definition: such runs are weakly fair. That an instance whose ready action needs no
transaction counts as ready in R173's sense is DEDUCED (assumption 5). No step of the model enforces fairness; a claim that
needs it names it. -/
def WeaklyFair (run : Nat → State) : Prop :=
  (∀ p n, (∀ m, n ≤ m → (run m).instanceReady p) →
    ∃ m a, n ≤ m ∧ a.port = p ∧ (run m).chosen = some a) ∧
  ∀ p n, (∀ m, n ≤ m → (run m).ready (.tick p) = true) → ∃ m, n ≤ m ∧ (run m).chosen = some (.tick p)

end Sys2Proof.Machine
end

