-- ==== Sys2Proof/Certificates/Slice0/Obligations.lean ====
section
/-! DEFINITION. The statements about the model, one `def Obligations.<Name> : Prop` each, listed in OBLIGATIONS.json. Words,
status codes, masks and register values are written out as the rules give them, so that a wrong one in the model makes
the statement false. -/

namespace Sys2Proof.Machine

/-! ### The forms of a next state used below -/

/-- `s` with the executing instance's fields now `P`, and nothing else changed. -/
abbrev State.withExecuting (s : State) (P : Port) : State := { s with ports := s.ports.set s.active P }

/-- `s` after the one transaction `r`, with the fields of the instance that issued it now `P`, and nothing else changed:
the oracle has answered and the bus trace has the record. -/
abbrev State.afterBus (s : State) (r : BusRecord) (P : Port) : State :=
  { s.dropAnswer with busTrace := s.busTrace ++ [r], ports := s.ports.set r.port P }

/-- The instance is answered with `word`: it is idle again. -/
abbrev Port.answered (P : Port) (word : ResponseWord) : Port := { P with cmd := none, response := some word }

/-- The instance is answered with `word`, and `violation` is set. -/
abbrev Port.answeredViolation (P : Port) (word : ResponseWord) : Port :=
  { P with cmd := none, response := some word, violation := true }

/-- The instance `p` of `s` has the fields `P`. -/
abbrev State.Holds (s : State) (p : Nat) (P : Port) : Prop := s.ports[p]? = some P

/-- A successful TOGGLE_RELAY of a pin in 1..8 on a CONFIGURED RELAY_OUTPUT instance takes `s` to `t` and its cached byte
from `b` to `b'` (the setting of R130). -/
def Toggled (s : State) (pin : BitVec 4) (asserted : Bool) (t : State) (b b' : Byte) : Prop :=
  1 ≤ pin.toNat ∧ pin.toNat ≤ 8 ∧ busOutcome s.nextAnswer = .ok ∧ exec (.toggleRelay pin asserted) s = .next t ∧
    ∃ P P', s.Holds s.active P ∧ P.phase = .configured ∧ P.role = some .relayOutput ∧ P.currentByte = some b ∧
      t.Holds t.active P' ∧ P'.currentByte = some b'

/-- Between `s` and `t` the oracle's future lost one answer if a transaction was issued, and none otherwise. -/
def TakesOneAnswer (s t : State) : Prop :=
  (t.busTrace = s.busTrace → t.answers = s.answers ∧ t.draws = s.draws) ∧
  (t.busTrace ≠ s.busTrace →
    (∀ x rest, s.answers = x :: rest → t.answers = rest ∧ t.draws = s.draws) ∧
    (s.answers = [] → t.answers = [] ∧ t.draws = s.draws + 1))

/-- The transactions of instance `p`, oldest first. -/
def State.ownTrace (s : State) (p : Nat) : List BusRecord := s.busTrace.filter fun r => r.port == p

/-- The setting of R117 to R119 under any schedule: the step from `s` accepts CONSTRUCT on the UNCONFIGURED instance `p`, and
`t`, after `n` more steps, is the first state in which it is answered. Other instances' moves may go in between (R67). -/
def ConstructedBetween (s t : State) (n p : Nat) (P P' : Port) (dev : DeviceAddress) (sp : SubPort) (code : RoleCode) :
    Prop :=
  s.Holds p P ∧ P.phase = .unconfigured ∧ P.cmd = none ∧ s.offered p = some (encode (.construct dev sp code)) ∧
    s.chosen = some (.command p) ∧ Host.Core.run Sys2Proof.core (n + 1) s = .next t ∧ t.Holds p P' ∧ P'.cmd = none ∧
    ∀ j u Q, 1 ≤ j → j ≤ n → Host.Core.run Sys2Proof.core j s = .next u → u.Holds p Q → Q.cmd ≠ none

/-- None of the transactions of instance `p` between `s` and `t` failed. -/
def OwnWritesSucceed (s t : State) (p : Nat) : Prop :=
  ∀ r ∈ t.busTrace.drop s.busTrace.length, r.port = p → r.outcome = .ok

end Sys2Proof.Machine

open Sys2Proof Sys2Proof.Machine

/-! ### Encoding -/

/-- R98: the worked encodings, read as words (they decode to the commands they stand for, and the illegal examples to
Illegal) and written as assembler lines (each assembles to its word). -/
def Obligations.WorkedWordsDecode : Prop :=
  decode 0x10000120 = .command (.construct 0x20 .a 0b01) ∧
  decode 0x100000A1 = .command (.construct 0x21 .b 0b00) ∧
  decode 0x100002A7 = .command (.construct 0x27 .b 0b10) ∧
  decode 0x20000000 = .command .readPort ∧
  decode 0x300000AA = .command (.writePort 0xAA) ∧
  decode 0x40000013 = .command (.toggleRelay 3 true) ∧
  decode 0x40000003 = .command (.toggleRelay 3 false) ∧
  decode 0x40000018 = .command (.toggleRelay 8 true) ∧
  decode 0x50000032 = .command (.pollStart 50) ∧
  decode 0x60000000 = .command .pollStop ∧
  decode 0x70000001 = .command (.subscribe 1) ∧
  decode 0x00000000 = .illegal .reservedOpcode ∧
  decode 0x80000000 = .illegal .reservedOpcode ∧
  decode 0x20000001 = .illegal .reservedBits ∧
  decode 0x10000400 = .illegal .reservedBits ∧
  assembleLine "CONSTRUCT 0x20, A, RELAY".toList = some 0x10000120 ∧
  assembleLine "CONSTRUCT 0x21, B, SENSOR".toList = some 0x100000A1 ∧
  assembleLine "CONSTRUCT 0x27, B, ROLE2".toList = some 0x100002A7 ∧
  assembleLine "READ_PORT".toList = some 0x20000000 ∧
  assembleLine "WRITE_PORT 0xAA".toList = some 0x300000AA ∧
  assembleLine "TOGGLE_RELAY 3, 1".toList = some 0x40000013 ∧
  assembleLine "TOGGLE_RELAY 3, 0".toList = some 0x40000003 ∧
  assembleLine "TOGGLE_RELAY 8, 1".toList = some 0x40000018 ∧
  assembleLine "POLL_START 50".toList = some 0x50000032 ∧
  assembleLine "POLL_STOP".toList = some 0x60000000 ∧
  assembleLine "SUBSCRIBE 1".toList = some 0x70000001

/-- R83 to R89: every word of each command has the opcode, the zero bits and the operand fields of its format rule, and
matches the rule's `match` under its `mask`. -/
def Obligations.CommandFormats : Prop :=
  (∀ dev sp role,
    let w := encode (.construct dev sp role)
    w.extractLsb' 28 4 = 0x1#4 ∧ w.extractLsb' 10 18 = 0#18 ∧ w.extractLsb' 8 2 = role ∧
      (w.getLsbD 7 = true ↔ sp = .b) ∧ w.extractLsb' 0 7 = dev ∧ w &&& 0xFFFFFC00#32 = 0x10000000#32 ∧
      (roleOf role = some .sensorInput ↔ role = 0b00#2) ∧ (roleOf role = some .relayOutput ↔ role = 0b01#2)) ∧
  ((encode .readPort).extractLsb' 28 4 = 0x2#4 ∧ (encode .readPort).extractLsb' 0 28 = 0#28 ∧
    encode .readPort &&& 0xFFFFFFFF#32 = 0x20000000#32) ∧
  (∀ value,
    let w := encode (.writePort value)
    w.extractLsb' 28 4 = 0x3#4 ∧ w.extractLsb' 8 20 = 0#20 ∧ w.extractLsb' 0 8 = value ∧
      w &&& 0xFFFFFF00#32 = 0x30000000#32) ∧
  (∀ pin asserted,
    let w := encode (.toggleRelay pin asserted)
    w.extractLsb' 28 4 = 0x4#4 ∧ w.extractLsb' 5 23 = 0#23 ∧ w.getLsbD 4 = asserted ∧ w.extractLsb' 0 4 = pin ∧
      w &&& 0xFFFFFFE0#32 = 0x40000000#32 ∧ (pinIndex pin ≠ none ↔ 1 ≤ pin.toNat ∧ pin.toNat ≤ 8)) ∧
  (∀ ms,
    let w := encode (.pollStart ms)
    w.extractLsb' 28 4 = 0x5#4 ∧ w.extractLsb' 16 12 = 0#12 ∧ w.extractLsb' 0 16 = ms ∧
      w &&& 0xFFFF0000#32 = 0x50000000#32 ∧ ((Instr.pollStart ms).wellFormed = true ↔ ms ≠ 0)) ∧
  ((encode .pollStop).extractLsb' 28 4 = 0x6#4 ∧ (encode .pollStop).extractLsb' 0 28 = 0#28 ∧
    encode .pollStop &&& 0xFFFFFFFF#32 = 0x60000000#32) ∧
  (∀ id,
    let w := encode (.subscribe id)
    w.extractLsb' 28 4 = 0x7#4 ∧ w.extractLsb' 8 20 = 0#20 ∧ w.extractLsb' 0 8 = id ∧
      w &&& 0xFFFFFF00#32 = 0x70000000#32)

/-- R90 with R83 to R89: decoding the word of any command, with any operands, gives the command back. -/
def Obligations.DecodeEncodeAgree : Prop := ∀ i : Instr, decode (encode i) = .command i

/-- R81, R90: a word that decodes to a command is exactly the word of that command, so no bit of an accepted word is
dropped and each command has one word. -/
def Obligations.EncodeDecodeAgree : Prop := ∀ (w : Word) (i : Instr), decode w = .command i → encode i = w

/-- R91: a word is Illegal exactly when it matches no row of the opcode map, by reserved opcode exactly for opcodes 0x0
and 0x8 to 0xF; and an Illegal word offered to an idle instance, whatever its phase, is accepted and completes with
ILLEGAL_COMMAND (0x8000), issuing no transaction and changing no field but `violation`. -/
def Obligations.IllegalWords : Prop :=
  (∀ w : Word, (∃ why, decode w = .illegal why) ↔
    w &&& 0xFFFFFC00#32 ≠ 0x10000000#32 ∧ w &&& 0xFFFFFFFF#32 ≠ 0x20000000#32 ∧
    w &&& 0xFFFFFF00#32 ≠ 0x30000000#32 ∧ w &&& 0xFFFFFFE0#32 ≠ 0x40000000#32 ∧
    w &&& 0xFFFF0000#32 ≠ 0x50000000#32 ∧ w &&& 0xFFFFFFFF#32 ≠ 0x60000000#32 ∧
    w &&& 0xFFFFFF00#32 ≠ 0x70000000#32) ∧
  (∀ w : Word, decode w = .illegal .reservedOpcode ↔
    w.extractLsb' 28 4 = 0x0#4 ∨ 8 ≤ (w.extractLsb' 28 4).toNat) ∧
  (∃ why, decode 0x00000000 = .illegal why) ∧
  (∀ (s : State) (p : Nat) (P : Port) (w : Word) (why : IllegalReason) (rest : List Move),
    s.plan = .command p :: rest → s.Holds p P → P.cmd = none → s.offered p = some w → decode w = .illegal why →
    step s = .next { s with
      plan := rest, active := p, offers := s.offers.eraseP (fun o => o.port == p),
      ports := s.ports.set p { P with response := some 0x8000#16, violation := true } })

/-- R96: the word of each source command, written as the rule's column gives it, and the operands an assembler refuses;
pin 0, pins 9 to 15, ms = 0 and the unrecognised roles are among those it does not refuse. -/
def Obligations.AssembledWords : Prop :=
  (∀ dev sp role, SourceCommand.assemble (.construct dev sp role) =
    if dev > 0x7F then none
    else some (0x10000000#32 ||| (role.zeroExtend 32 <<< 8) ||| ((match sp with | .a => 0 | .b => 1 : Word) <<< 7) |||
      BitVec.ofNat 32 dev)) ∧
  SourceCommand.assemble .readPort = some 0x20000000#32 ∧
  (∀ value, SourceCommand.assemble (.writePort value) =
    if value > 0xFF then none else some (0x30000000#32 ||| BitVec.ofNat 32 value)) ∧
  (∀ pin asserted, SourceCommand.assemble (.toggleRelay pin asserted) =
    if pin > 15 then none
    else some (0x40000000#32 ||| ((if asserted then 1#32 else 0#32) <<< 4) ||| BitVec.ofNat 32 pin)) ∧
  (∀ ms, SourceCommand.assemble (.pollStart ms) =
    if ms > 0xFFFF then none else some (0x50000000#32 ||| BitVec.ofNat 32 ms)) ∧
  SourceCommand.assemble .pollStop = some 0x60000000#32 ∧
  (∀ id, SourceCommand.assemble (.subscribe id) =
    if id > 0xFF then none else some (0x70000000#32 ||| BitVec.ofNat 32 id))

/-- R97: each pseudo-command, whatever its operands' text, is its expansion. -/
def Obligations.PseudoCommandsExpand : Prop :=
  ∀ x y : List Char,
    parseCommand "RELAY_ON".toList [x] = parseCommand "TOGGLE_RELAY".toList [x, "1".toList] ∧
    parseCommand "RELAY_OFF".toList [x] = parseCommand "TOGGLE_RELAY".toList [x, "0".toList] ∧
    parseCommand "CONSTRUCT_SENSOR".toList [x, y] = parseCommand "CONSTRUCT".toList [x, y, "SENSOR".toList] ∧
    parseCommand "CONSTRUCT_RELAY".toList [x, y] = parseCommand "CONSTRUCT".toList [x, y, "RELAY".toList]

/-! ### The Bit Codec -/

/-- R101: the five laws of `setBit`. -/
def Obligations.SetBitLaws : Prop :=
  ∀ (b : Byte) (i : Fin 8) (x y : Bool),
    setBit (setBit b i x) i y = setBit b i y ∧
    (setBit b i x).getLsbD i = x ∧
    (∀ j : Fin 8, j ≠ i → (setBit b i x).getLsbD j = b.getLsbD j) ∧
    setBit b i (b.getLsbD i) = b ∧
    (∀ j : Fin 8, i ≠ j → setBit (setBit b i x) j y = setBit (setBit b j y) i x)

/-- R104: the six laws of `diffBytes`. -/
def Obligations.DiffBytesLaws : Prop :=
  ∀ new old : Byte,
    diffBytes new new = ⟨0x00, 0x00⟩ ∧
    (changeEntries (diffBytes new old).mask (diffBytes new old).levels).length = popcount (new ^^^ old) ∧
    ((diffBytes new old).mask = 0x00 ↔ new = old) ∧
    old = new ^^^ (diffBytes new old).mask ∧
    (diffBytes new old).mask = (diffBytes old new).mask ∧
    (diffBytes new old).levels ^^^ (diffBytes old new).levels = (diffBytes new old).mask ∧
    (diffBytes new old).levels &&& ~~~(diffBytes new old).mask = 0x00

/-- R103: as a mapping, the change set of `diffBytes(new, old)` holds the entry `(i + 1) ↦ (new[i] = 1)` for every `i` in
0..7 where the bytes differ, and no other entry. -/
def Obligations.DiffEntriesAreTheDifferingPins : Prop :=
  ∀ (new old : Byte) (pin : Nat) (level : Bool),
    (diffBytes new old).mask = new ^^^ old ∧ (diffBytes new old).levels = new &&& (new ^^^ old) ∧
    ((pin, level) ∈ changeEntries (diffBytes new old).mask (diffBytes new old).levels ↔
      ∃ i : Fin 8, pin = i.val + 1 ∧ new.getLsbD i ≠ old.getLsbD i ∧ level = new.getLsbD i)

/-- R102: pins 1 to 8 are bits 0 to 7; pins outside 1..8 have no index. -/
def Obligations.PinIndexIsPinMinusOne : Prop :=
  ∀ pin : BitVec 4,
    (1 ≤ pin.toNat ∧ pin.toNat ≤ 8 → ∃ i : Fin 8, pinIndex pin = some i ∧ i.val = pin.toNat - 1) ∧
    (¬(1 ≤ pin.toNat ∧ pin.toNat ≤ 8) → pinIndex pin = none)

/-! ### The Register Map and the transport -/

/-- The default Register Map. PRESUMED (assumption 3): R56 takes the table from general knowledge. Every family's B
address is its A address plus one, no two of the 22 pairs share an address, and the five families the block uses stand
where the table puts them. -/
def Obligations.DefaultRegisterMap : Prop :=
  (∀ f, bankZeroMap.addr f .b = bankZeroMap.addr f .a + 1) ∧
  (∀ f sp f' sp', bankZeroMap.addr f sp = bankZeroMap.addr f' sp' → f = f' ∧ sp = sp') ∧
  (∀ f sp, bankZeroMap.addr f sp ≤ 0x15#8) ∧
  bankZeroMap.addr .iodir .a = 0x00 ∧ bankZeroMap.addr .ipol .a = 0x02 ∧ bankZeroMap.addr .iocon .a = 0x0A ∧
  bankZeroMap.addr .gppu .a = 0x0C ∧ bankZeroMap.addr .gpio .a = 0x12

/-- R60: the transport calls of a write and of a read transaction: the device is selected first, and a write sends the
register address before the value. For a transaction that fails the same list is the model's own, by assumption 12
(DEDUCED): R60 and R62 do not say which of the calls were made. -/
def Obligations.TransactionCalls : Prop :=
  ∀ (s : State) (p : Nat) (dev : DeviceAddress) (reg v : Byte),
    (∃ r, (s.regWrite p dev reg v).2.busTrace = s.busTrace ++ [r] ∧ r.port = p ∧
      r.calls = [.selectDevice dev, .write [reg, v]]) ∧
    (∃ r, (s.regRead p dev reg).2.busTrace = s.busTrace ++ [r] ∧ r.port = p ∧
      r.calls = [.selectDevice dev, .write [reg], .read 1])

/-! ### Reset and steps -/

/-- R41, R190: a run under any configuration begins with every instance in the reset column of R21 and the three logs
empty. -/
def Obligations.ResetState : Prop :=
  ∀ c : Config, (State.boot c).cfg = c ∧ (State.boot c).ports.length = c.nPorts ∧
    (∀ P ∈ (State.boot c).ports,
      P.phase = .unconfigured ∧ P.polling = false ∧ P.subscribers = [] ∧ P.violation = false ∧
      P.deviceAddress = none ∧ P.subPort = none ∧ P.role = none ∧ P.currentByte = none ∧ P.directionByte = none ∧
      P.pullupByte = none ∧ P.polarityByte = none ∧ P.seq = none ∧ P.cmd = none ∧ P.interval = none) ∧
    (State.boot c).busTrace = [] ∧ (State.boot c).changeLog = [] ∧ (State.boot c).errorLog = []

/-- R110: when the arbiter lets the command step of an idle instance go, the offered word becomes its `cmd` and the step is
the meaning of the decoded command on the state so made, or ILLEGAL_COMMAND; and a command issues at most one
transaction in its step. -/
def Obligations.StepRunsDecodedCommand : Prop :=
  (∀ (s : State) (p : Nat) (P : Port) (w : Word) (rest : List Move),
    s.plan = .command p :: rest → s.Holds p P → P.cmd = none → s.offered p = some w →
    let s' : State := { s with
      plan := rest, active := p, offers := s.offers.eraseP (fun o => o.port == p),
      ports := s.ports.set p { P with cmd := some w } }
    (∀ i, decode w = .command i → step s = exec i s') ∧
    (∀ why, decode w = .illegal why →
      step s = .next { s' with ports := s.ports.set p { P with response := some 0x8000#16, violation := true } })) ∧
  (∀ (i : Instr) (s t : State), exec i s = .next t → t.busTrace.length ≤ s.busTrace.length + 1)

/-- R111: a busy instance, which includes the whole of CONSTRUCTING (in states of the invariant, StepKeepsInvariant),
takes no command and runs no tick, and the word offered to it waits, neither dropped nor queued, through every step. -/
def Obligations.BusyPortWaits : Prop :=
  ∀ (s : State) (p : Nat) (P : Port), s.Holds p P → (P.cmd ≠ none ∨ P.phase = .constructing ∧ P.Inv s.cfg) →
    s.ready (.command p) = false ∧ s.ready (.tick p) = false ∧
    ∀ t, step s = .next t → t.offers.filter (fun o => o.port == p) = s.offers.filter (fun o => o.port == p)

/-- R146: a tick is ready exactly when its instance is CONFIGURED, polling and idle; and when it and a command of the same
instance are both ready, either may go first. -/
def Obligations.TickReadyExactly : Prop :=
  ∀ (s : State) (p : Nat) (P : Port), s.Holds p P →
    (s.ready (.tick p) = true ↔ P.phase = .configured ∧ P.polling = true ∧ P.cmd = none) ∧
    (s.ready (.tick p) = true → s.ready (.command p) = true → ∀ rest,
      step { s with plan := .tick p :: rest } = perform (.tick p) { s with plan := rest } ∧
      step { s with plan := .command p :: rest } = perform (.command p) { s with plan := rest })

/-- R173, R146: no order is fixed. From every state, every ready move is the one that goes under some order of the
environment's; and whatever the order, the move that goes is a ready one, or nothing is ready and the system waits. That an
order is a plan in the state is the model's choice (assumption 5), and so is that waiting is a step to the same state
(assumption 10, DEDUCED from R192's "each instance waits"). -/
def Obligations.AnyReadyMoveMayGoNext : Prop :=
  (∀ (s : State) (a : Move) (rest : List Move), s.ready a = true →
    step { s with plan := a :: rest } = perform a { s with plan := rest }) ∧
  (∀ s : State, (∃ a d, s.ready a = true ∧ step s = perform a { s with plan := s.plan.tail, draws := d }) ∨
    (∀ a, s.ready a = false) ∧ step s = .next s)

/-! ### The Port Driver -/

/-- R112: CONSTRUCT is accepted by an UNCONFIGURED instance, which becomes CONSTRUCTING at step 0 with the operands'
address and sub-port, issues no transaction and stays busy; with an empty program it ends at once in FAILED with
INVALID_ROLE (0x1000); a FAILED instance answers PORT_FAILED (0x5000), a CONFIGURED one ALREADY_CONFIGURED (0x4000). -/
def Obligations.ConstructMeaning : Prop :=
  ∀ (s : State) (P : Port) (dev : DeviceAddress) (sp : SubPort) (code : RoleCode), s.Holds s.active P →
    (P.phase = .failed →
      exec (.construct dev sp code) s = .next (s.withExecuting (P.answeredViolation 0x5000#16))) ∧
    (P.phase = .configured →
      exec (.construct dev sp code) s = .next (s.withExecuting (P.answeredViolation 0x4000#16))) ∧
    (P.phase = .unconfigured → (prog s.cfg code).length ≠ 0 →
      exec (.construct dev sp code) s = .next (s.withExecuting
        { P with deviceAddress := some dev, subPort := some sp, phase := .constructing, seq := some 0 })) ∧
    (P.phase = .unconfigured → (prog s.cfg code).length = 0 →
      exec (.construct dev sp code) s = .next (s.withExecuting
        ({ P with deviceAddress := some dev, subPort := some sp, phase := .failed, seq := none }.answered 0x1000#16)))

/-- R113 to R116: the construction program of each role code; and a construction step of a CONSTRUCTING instance is the one
write of its row to the instance's own device and sub-port. On failure it ends in FAILED with TRANSPORT (0x2000). On
success it updates the shadow of the family written (IOCON has none), then, at step 0, the role (and `currentByte` for a
sensor), and goes on to the next step; after the last one it ends in CONFIGURED with OK for role codes 0b00 and 0b01, and
in FAILED with INVALID_ROLE (0x1000) for the others. -/
def Obligations.ConstructionStepMeaning : Prop :=
  (∀ c : Config,
    prog c 0b00 = [(.iocon, 0x22), (.iodir, 0xFF), (.gppu, 0xFF), (.ipol, 0x00)] ∧
    prog c 0b01 = [(.iocon, 0x22), (.iodir, 0x00), (.gpio, 0xFF)] ∧
    (∀ code : RoleCode, code = 0b10 ∨ code = 0b11 →
      prog c code = if c.invalidRoleWritesConfig then [(.iocon, 0x22)] else [])) ∧
  (∀ (s : State) (p : Nat) (P : Port) (w : Word) (k : Nat) (f : Family) (v : Byte) (dev : DeviceAddress) (sp : SubPort),
    s.Holds p P → P.phase = .constructing → P.seq = some k → P.cmd = some w →
    (prog s.cfg (w.extractLsb' 8 2))[k]? = some (f, v) → P.deviceAddress = some dev → P.subPort = some sp →
    let code : RoleCode := w.extractLsb' 8 2
    let shadowed : Port := match f with
      | .iodir => { P with directionByte := some v }
      | .gppu => { P with pullupByte := some v }
      | .ipol => { P with polarityByte := some v }
      | .gpio => { P with currentByte := some v }
      | .iocon | .gpinten | .defval | .intcon | .intf | .intcap | .olat => P
    let P' : Port :=
      if k ≠ 0 then shadowed
      else if code = 0b00#2 then { shadowed with role := some .sensorInput, currentByte := some 0xFF }
      else if code = 0b01#2 then { shadowed with role := some .relayOutput }
      else shadowed
    (s.nextAnswer = .fail →
      perform (.construct p) s = .next (s.afterBus ⟨p, .write, dev, s.cfg.regs.addr f sp, some v, .fail⟩
        ({ P with phase := .failed, seq := none }.answered 0x2000#16))) ∧
    (∀ b, s.nextAnswer = .ok b →
      perform (.construct p) s = .next (s.afterBus ⟨p, .write, dev, s.cfg.regs.addr f sp, some v, .ok⟩
        (if k + 1 ≠ (prog s.cfg code).length then { P' with seq := some (k + 1) }
         else if code = 0b00#2 ∨ code = 0b01#2 then { P' with phase := .configured, seq := none }.answered 0x0000#16
         else { P' with phase := .failed, seq := none }.answered 0x1000#16))))

/-- R117, R67: a SENSOR_INPUT construction whose four writes succeed, from the offered word to the response OK: under an
uninterrupted schedule on an initialised transport, the whole next state; and under any schedule, with the moves of other
instances in between, the instance's own transactions and its fields. -/
def Obligations.SensorConstruction : Prop :=
  (∀ (s : State) (p : Nat) (P : Port) (dev : DeviceAddress) (sp : SubPort) (b0 b1 b2 b3 : Byte)
    (restPlan : List Move) (restAnswers : List Answer),
    s.Holds p P → P.phase = .unconfigured → P.cmd = none → s.TransportReady →
    s.offered p = some (encode (.construct dev sp 0b00)) →
    s.plan = .command p :: .construct p :: .construct p :: .construct p :: .construct p :: restPlan →
    s.answers = .ok b0 :: .ok b1 :: .ok b2 :: .ok b3 :: restAnswers →
    Host.Core.run Sys2Proof.core 5 s = .next { s with
      plan := restPlan, answers := restAnswers, active := p, offers := s.offers.eraseP (fun o => o.port == p),
      busTrace := s.busTrace ++
        [⟨p, .write, dev, s.cfg.regs.addr .iocon sp, some 0x22, .ok⟩,
         ⟨p, .write, dev, s.cfg.regs.addr .iodir sp, some 0xFF, .ok⟩,
         ⟨p, .write, dev, s.cfg.regs.addr .gppu sp, some 0xFF, .ok⟩,
         ⟨p, .write, dev, s.cfg.regs.addr .ipol sp, some 0x00, .ok⟩],
      ports := s.ports.set p { P with
        deviceAddress := some dev, subPort := some sp, phase := .configured, role := some .sensorInput,
        currentByte := some 0xFF, directionByte := some 0xFF, pullupByte := some 0xFF, polarityByte := some 0x00,
        seq := none, cmd := none, response := some 0x0000#16 } }) ∧
  (∀ (s t : State) (n p : Nat) (P P' : Port) (dev : DeviceAddress) (sp : SubPort),
    ConstructedBetween s t n p P P' dev sp 0b00 → OwnWritesSucceed s t p →
    t.ownTrace p = s.ownTrace p ++
      [⟨p, .write, dev, s.cfg.regs.addr .iocon sp, some 0x22, .ok⟩,
       ⟨p, .write, dev, s.cfg.regs.addr .iodir sp, some 0xFF, .ok⟩,
       ⟨p, .write, dev, s.cfg.regs.addr .gppu sp, some 0xFF, .ok⟩,
       ⟨p, .write, dev, s.cfg.regs.addr .ipol sp, some 0x00, .ok⟩] ∧
    P' = { P with
      deviceAddress := some dev, subPort := some sp, phase := .configured, role := some .sensorInput,
      currentByte := some 0xFF, directionByte := some 0xFF, pullupByte := some 0xFF, polarityByte := some 0x00,
      seq := none, cmd := none, response := some 0x0000#16 })

/-- R118, R67: a RELAY_OUTPUT construction whose three writes succeed, under an uninterrupted schedule on an initialised
transport and under any schedule. Pull-up and polarity are not written and stay ⊥, as the invariant says of an UNCONFIGURED
instance. -/
def Obligations.RelayConstruction : Prop :=
  (∀ (s : State) (p : Nat) (P : Port) (dev : DeviceAddress) (sp : SubPort) (b0 b1 b2 : Byte)
    (restPlan : List Move) (restAnswers : List Answer),
    s.Holds p P → P.Inv s.cfg → P.phase = .unconfigured → P.cmd = none → s.TransportReady →
    s.offered p = some (encode (.construct dev sp 0b01)) →
    s.plan = .command p :: .construct p :: .construct p :: .construct p :: restPlan →
    s.answers = .ok b0 :: .ok b1 :: .ok b2 :: restAnswers →
    Host.Core.run Sys2Proof.core 4 s = .next { s with
      plan := restPlan, answers := restAnswers, active := p, offers := s.offers.eraseP (fun o => o.port == p),
      busTrace := s.busTrace ++
        [⟨p, .write, dev, s.cfg.regs.addr .iocon sp, some 0x22, .ok⟩,
         ⟨p, .write, dev, s.cfg.regs.addr .iodir sp, some 0x00, .ok⟩,
         ⟨p, .write, dev, s.cfg.regs.addr .gpio sp, some 0xFF, .ok⟩],
      ports := s.ports.set p { P with
        deviceAddress := some dev, subPort := some sp, phase := .configured, role := some .relayOutput,
        currentByte := some 0xFF, directionByte := some 0x00, pullupByte := none, polarityByte := none,
        seq := none, cmd := none, response := some 0x0000#16 } }) ∧
  (∀ (s t : State) (n p : Nat) (P P' : Port) (dev : DeviceAddress) (sp : SubPort),
    ConstructedBetween s t n p P P' dev sp 0b01 → P.Inv s.cfg → OwnWritesSucceed s t p →
    t.ownTrace p = s.ownTrace p ++
      [⟨p, .write, dev, s.cfg.regs.addr .iocon sp, some 0x22, .ok⟩,
       ⟨p, .write, dev, s.cfg.regs.addr .iodir sp, some 0x00, .ok⟩,
       ⟨p, .write, dev, s.cfg.regs.addr .gpio sp, some 0xFF, .ok⟩] ∧
    P' = { P with
      deviceAddress := some dev, subPort := some sp, phase := .configured, role := some .relayOutput,
      currentByte := some 0xFF, directionByte := some 0x00, pullupByte := none, polarityByte := none,
      seq := none, cmd := none, response := some 0x0000#16 })

/-- R119, R67: an unrecognised role ends construction in FAILED with INVALID_ROLE (0x1000) and `role` still ⊥, without
setting `violation`: after the configuration write when `P_INVALID_ROLE_WRITES_CONFIG` is true (TRANSPORT, 0x2000, if that
write fails), at acceptance and without a transaction when it is false. First under an uninterrupted schedule, then under
any schedule. -/
def Obligations.UnrecognisedRole : Prop :=
  (∀ (s : State) (p : Nat) (P : Port) (dev : DeviceAddress) (sp : SubPort) (code : RoleCode),
    code = 0b10 ∨ code = 0b11 → s.Holds p P → P.Inv s.cfg → P.phase = .unconfigured → P.cmd = none →
    s.offered p = some (encode (.construct dev sp code)) →
    let failed (word : ResponseWord) : Port := { P with
      deviceAddress := some dev, subPort := some sp, role := none, phase := .failed, seq := none, cmd := none,
      response := some word }
    (∀ rest, s.cfg.invalidRoleWritesConfig = true → s.plan = .command p :: .construct p :: rest →
      (∀ b answers, s.TransportReady → s.answers = .ok b :: answers →
        Host.Core.run Sys2Proof.core 2 s = .next { s with
          plan := rest, answers := answers, active := p, offers := s.offers.eraseP (fun o => o.port == p),
          busTrace := s.busTrace ++ [⟨p, .write, dev, s.cfg.regs.addr .iocon sp, some 0x22, .ok⟩],
          ports := s.ports.set p (failed 0x1000#16) }) ∧
      (∀ answers, s.answers = .fail :: answers →
        Host.Core.run Sys2Proof.core 2 s = .next { s with
          plan := rest, answers := answers, active := p, offers := s.offers.eraseP (fun o => o.port == p),
          busTrace := s.busTrace ++ [⟨p, .write, dev, s.cfg.regs.addr .iocon sp, some 0x22, .fail⟩],
          ports := s.ports.set p (failed 0x2000#16) })) ∧
    (∀ rest, s.cfg.invalidRoleWritesConfig = false → s.plan = .command p :: rest →
      step s = .next { s with
        plan := rest, active := p, offers := s.offers.eraseP (fun o => o.port == p),
        ports := s.ports.set p (failed 0x1000#16) })) ∧
  (∀ (s t : State) (n p : Nat) (P P' : Port) (dev : DeviceAddress) (sp : SubPort) (code : RoleCode),
    code = 0b10 ∨ code = 0b11 → ConstructedBetween s t n p P P' dev sp code → P.Inv s.cfg →
    let failed (word : ResponseWord) : Port := { P with
      deviceAddress := some dev, subPort := some sp, role := none, phase := .failed, seq := none, cmd := none,
      response := some word }
    (s.cfg.invalidRoleWritesConfig = true → ∃ o,
      t.ownTrace p = s.ownTrace p ++ [⟨p, .write, dev, s.cfg.regs.addr .iocon sp, some 0x22, o⟩] ∧
      P' = failed (match o with | .ok => 0x1000#16 | .fail => 0x2000#16)) ∧
    (s.cfg.invalidRoleWritesConfig = false →
      n = 0 ∧ t.busTrace = s.busTrace ∧ P' = failed 0x1000#16))

/-- R120: when the write of any construction step fails, the step ends construction in FAILED with TRANSPORT (0x2000); the
fields earlier steps wrote keep their values and no later write is issued: no construction step of the instance is ready
any more. -/
def Obligations.ConstructionTransportFailure : Prop :=
  ∀ (s : State) (p : Nat) (P : Port) (w : Word) (k : Nat) (f : Family) (v : Byte) (dev : DeviceAddress) (sp : SubPort)
    (rest : List Move),
    s.plan = .construct p :: rest → s.Holds p P → P.phase = .constructing → P.seq = some k → P.cmd = some w →
    (prog s.cfg (roleField w))[k]? = some (f, v) → P.deviceAddress = some dev → P.subPort = some sp →
    s.nextAnswer = .fail →
    ∃ t, step s = .next t ∧ t.ready (.construct p) = false ∧
      t = { s.dropAnswer with
        plan := rest,
        busTrace := s.busTrace ++ [⟨p, .write, dev, s.cfg.regs.addr f sp, some v, .fail⟩],
        ports := s.ports.set p { P with phase := .failed, seq := none, cmd := none, response := some 0x2000#16 } }

/-- R123, R124: READ_PORT on a FAILED and on an UNCONFIGURED instance, and on a CONFIGURED one: one read of GPIO; on
success `currentByte` and the response carry the byte, on failure `currentByte` is unchanged and the response is TRANSPORT
(0x2000). No event is logged. -/
def Obligations.ReadPortMeaning : Prop :=
  ∀ (s : State) (P : Port), s.Holds s.active P →
    (P.phase = .failed → exec .readPort s = .next (s.withExecuting (P.answeredViolation 0x5000#16))) ∧
    (P.phase = .unconfigured → exec .readPort s = .next (s.withExecuting (P.answeredViolation 0x3000#16))) ∧
    (∀ dev sp, P.phase = .configured → P.deviceAddress = some dev → P.subPort = some sp →
      (∀ b, s.nextAnswer = .ok b →
        exec .readPort s = .next (s.afterBus ⟨s.active, .read, dev, s.cfg.regs.addr .gpio sp, some b, .ok⟩
          ({ P with currentByte := some b }.answered (b.setWidth 16)))) ∧
      (s.nextAnswer = .fail →
        exec .readPort s = .next (s.afterBus ⟨s.active, .read, dev, s.cfg.regs.addr .gpio sp, none, .fail⟩
          (P.answered 0x2000#16))))

/-- R125, R126: WRITE_PORT on a FAILED and on an UNCONFIGURED instance, and on a CONFIGURED one: one write of GPIO, of any
value and on either role; `currentByte` takes the value on success only. -/
def Obligations.WritePortMeaning : Prop :=
  ∀ (s : State) (P : Port) (value : Byte), s.Holds s.active P →
    (P.phase = .failed → exec (.writePort value) s = .next (s.withExecuting (P.answeredViolation 0x5000#16))) ∧
    (P.phase = .unconfigured →
      exec (.writePort value) s = .next (s.withExecuting (P.answeredViolation 0x3000#16))) ∧
    (∀ dev sp, P.phase = .configured → P.deviceAddress = some dev → P.subPort = some sp →
      (∀ b, s.nextAnswer = .ok b →
        exec (.writePort value) s = .next (s.afterBus
          ⟨s.active, .write, dev, s.cfg.regs.addr .gpio sp, some value, .ok⟩
          ({ P with currentByte := some value }.answered 0x0000#16))) ∧
      (s.nextAnswer = .fail →
        exec (.writePort value) s = .next (s.afterBus
          ⟨s.active, .write, dev, s.cfg.regs.addr .gpio sp, some value, .fail⟩ (P.answered 0x2000#16))))

/-- R127, R128, R129: TOGGLE_RELAY. The refusals in the order of R172: FAILED, UNCONFIGURED, a pin outside 1..8 (whatever
the role), a SENSOR_INPUT instance. On a CONFIGURED RELAY_OUTPUT instance one write of the cached byte with the pin's bit
cleared for `assert` 1 and set for `assert` 0. -/
def Obligations.ToggleRelayMeaning : Prop :=
  ∀ (s : State) (P : Port) (pin : BitVec 4) (asserted : Bool), s.Holds s.active P →
    (P.phase = .failed →
      exec (.toggleRelay pin asserted) s = .next (s.withExecuting (P.answeredViolation 0x5000#16))) ∧
    (P.phase = .unconfigured →
      exec (.toggleRelay pin asserted) s = .next (s.withExecuting (P.answeredViolation 0x3000#16))) ∧
    (P.phase = .configured → ¬(1 ≤ pin.toNat ∧ pin.toNat ≤ 8) →
      exec (.toggleRelay pin asserted) s = .next (s.withExecuting (P.answeredViolation 0x6000#16))) ∧
    (P.phase = .configured → 1 ≤ pin.toNat → pin.toNat ≤ 8 → P.role = some .sensorInput →
      exec (.toggleRelay pin asserted) s = .next (s.withExecuting (P.answeredViolation 0x7000#16))) ∧
    (∀ b dev sp, P.phase = .configured → 1 ≤ pin.toNat → pin.toNat ≤ 8 → P.role = some .relayOutput →
      P.currentByte = some b → P.deviceAddress = some dev → P.subPort = some sp →
      let nb := if asserted then b &&& ~~~(1#8 <<< (pin.toNat - 1)) else b ||| (1#8 <<< (pin.toNat - 1))
      (∀ x, s.nextAnswer = .ok x →
        exec (.toggleRelay pin asserted) s = .next (s.afterBus
          ⟨s.active, .write, dev, s.cfg.regs.addr .gpio sp, some nb, .ok⟩
          ({ P with currentByte := some nb }.answered 0x0000#16))) ∧
      (s.nextAnswer = .fail →
        exec (.toggleRelay pin asserted) s = .next (s.afterBus
          ⟨s.active, .write, dev, s.cfg.regs.addr .gpio sp, some nb, .fail⟩ (P.answered 0x2000#16))))

/-- R130: the laws of successful TOGGLE_RELAY commands on a CONFIGURED RELAY_OUTPUT instance: the bit written and the
others unchanged; twice leaves the byte of once, by two identical writes; on then off restores the byte exactly when the
starting byte had the bit set; toggles of distinct pins commute in their effect on the cached byte. -/
def Obligations.ToggleRelayLaws : Prop :=
  (∀ s pin a t b b', Toggled s pin a t b b' →
    b'.getLsbD (pin.toNat - 1) = !a ∧
      ∀ j, j < 8 → j ≠ pin.toNat - 1 → b'.getLsbD j = b.getLsbD j) ∧
  (∀ s pin a t u b b' b'', Toggled s pin a t b b' → Toggled t pin a u b' b'' →
    b'' = b' ∧ ∃ r, t.busTrace = s.busTrace ++ [r] ∧ u.busTrace = t.busTrace ++ [r]) ∧
  (∀ s pin t u b b' b'', Toggled s pin true t b b' → Toggled t pin false u b' b'' →
    (b'' = b ↔ b.getLsbD (pin.toNat - 1) = true)) ∧
  (∀ s pin pin' a a' t u t' u' b b₁ b₂ b₁' b₂', pin ≠ pin' →
    Toggled s pin a t b b₁ → Toggled t pin' a' u b₁ b₂ →
    Toggled s pin' a' t' b b₁' → Toggled t' pin a u' b₁' b₂' → b₂ = b₂')

/-! ### Polling and the notifier -/

/-- R140, R141: POLL_START on a FAILED and on an UNCONFIGURED instance, with interval 0 (0x9000, polling or not), on a
polling instance (0xA000), and otherwise: `interval` and `polling` are written and the command completes at once, without
a transaction. -/
def Obligations.PollStartMeaning : Prop :=
  ∀ (s : State) (P : Port) (ms : Interval), s.Holds s.active P →
    (P.phase = .failed → exec (.pollStart ms) s = .next (s.withExecuting (P.answeredViolation 0x5000#16))) ∧
    (P.phase = .unconfigured → exec (.pollStart ms) s = .next (s.withExecuting (P.answeredViolation 0x3000#16))) ∧
    (P.phase = .configured → ms = 0 →
      exec (.pollStart ms) s = .next (s.withExecuting (P.answeredViolation 0x9000#16))) ∧
    (P.phase = .configured → ms ≠ 0 → P.polling = true →
      exec (.pollStart ms) s = .next (s.withExecuting (P.answeredViolation 0xA000#16))) ∧
    (P.phase = .configured → ms ≠ 0 → P.polling = false →
      exec (.pollStart ms) s = .next (s.withExecuting
        ({ P with interval := some ms, polling := true }.answered 0x0000#16)))

/-- R142, R143: POLL_STOP clears `polling` and nothing else, whether or not the instance was polling, without setting
`violation`. -/
def Obligations.PollStopMeaning : Prop :=
  ∀ (s : State) (P : Port), s.Holds s.active P →
    (P.phase = .failed → exec .pollStop s = .next (s.withExecuting (P.answeredViolation 0x5000#16))) ∧
    (P.phase = .unconfigured → exec .pollStop s = .next (s.withExecuting (P.answeredViolation 0x3000#16))) ∧
    (P.phase = .configured →
      exec .pollStop s = .next (s.withExecuting ({ P with polling := false }.answered 0x0000#16))) ∧
    (∀ ms t P', P.phase = .configured → ms ≠ 0 → exec .pollStop s = .next t → t.Holds t.active P' →
      exec (.pollStart ms) t = .next (t.withExecuting
        ({ P' with interval := some ms, polling := true }.answered 0x0000#16)))

/-- R144: once POLL_STOP has completed on a CONFIGURED instance, no tick of it is ready; and a step that is not its own
command step keeps it so. -/
def Obligations.PollStopCancelsTicks : Prop :=
  (∀ (s t : State) (P : Port), s.Holds s.active P → P.phase = .configured → exec .pollStop s = .next t →
    t.ready (.tick s.active) = false) ∧
  (∀ (s t : State) (p : Nat) (P : Port), s.Holds p P → P.polling = false → step s = .next t →
    s.chosen ≠ some (.command p) → t.ready (.tick p) = false)

/-- R154: SUBSCRIBE appends the id to the list, unless the capacity is bounded and reached (0xB000). -/
def Obligations.SubscribeMeaning : Prop :=
  ∀ (s : State) (P : Port) (id : Byte), s.Holds s.active P →
    (P.phase = .failed → exec (.subscribe id) s = .next (s.withExecuting (P.answeredViolation 0x5000#16))) ∧
    (P.phase = .unconfigured → exec (.subscribe id) s = .next (s.withExecuting (P.answeredViolation 0x3000#16))) ∧
    (P.phase = .configured → s.cfg.maxSubscribers = some P.subscribers.length →
      exec (.subscribe id) s = .next (s.withExecuting (P.answeredViolation 0xB000#16))) ∧
    (P.phase = .configured → s.cfg.maxSubscribers ≠ some P.subscribers.length →
      exec (.subscribe id) s = .next (s.withExecuting
        ({ P with subscribers := P.subscribers ++ [id] }.answered 0x0000#16)))

/-- R148, R150, R151, R156: the poll tick: one read of GPIO; on failure one error event and nothing else; on success
`currentByte` is the byte read, and exactly when it differs from the cached byte one change event is logged, delivered to
the subscribers as they stand. -/
def Obligations.TickMeaning : Prop :=
  ∀ (s : State) (p : Nat) (P : Port) (old : Byte) (dev : DeviceAddress) (sp : SubPort),
    s.Holds p P → P.phase = .configured → P.polling = true → P.cmd = none → P.currentByte = some old →
    P.deviceAddress = some dev → P.subPort = some sp →
    (s.nextAnswer = .fail →
      perform (.tick p) s = .next { s.afterBus ⟨p, .read, dev, s.cfg.regs.addr .gpio sp, none, .fail⟩ P with
        errorLog := s.errorLog ++ [⟨p, .transport⟩] }) ∧
    (s.nextAnswer = .ok old →
      perform (.tick p) s = .next (s.afterBus ⟨p, .read, dev, s.cfg.regs.addr .gpio sp, some old, .ok⟩ P)) ∧
    (∀ b, s.nextAnswer = .ok b → b ≠ old →
      perform (.tick p) s = .next { s.afterBus ⟨p, .read, dev, s.cfg.regs.addr .gpio sp, some b, .ok⟩
          { P with currentByte := some b } with
        changeLog := s.changeLog ++ [⟨p, b ^^^ old,
          if s.cfg.emitInvert then ~~~b &&& (b ^^^ old) else b &&& (b ^^^ old), P.subscribers⟩] })

/-- R149: the baseline is the cached byte: of two successive successful ticks of an instance that read the same byte, the
second logs nothing; and neither does a tick that reads the byte a READ_PORT has just read (R197). After a successful
WRITE_PORT or TOGGLE_RELAY the next tick logs nothing if it reads the byte written, and otherwise an event of exactly the
pins where the byte read differs from the byte written (R198). -/
def Obligations.SameByteTwiceEmitsOnce : Prop :=
  (∀ (s t u : State) (p : Nat) (b : Byte), s.ready (.tick p) = true →
    s.nextAnswer = .ok b → perform (.tick p) s = .next t →
    t.nextAnswer = .ok b → perform (.tick p) t = .next u →
    u.changeLog = t.changeLog ∧ u.errorLog = t.errorLog ∧ u.ports = t.ports) ∧
  (∀ (s t u : State) (b : Byte) (P : Port), s.Holds s.active P → P.phase = .configured →
    s.nextAnswer = .ok b → exec .readPort s = .next t →
    t.nextAnswer = .ok b → perform (.tick s.active) t = .next u →
    u.changeLog = s.changeLog) ∧
  (∀ (s t u : State) (i : Instr) (nb b : Byte) (P : Port), s.Holds s.active P → P.phase = .configured →
    (i = .writePort nb ∨ ∃ pin asserted c, i = .toggleRelay pin asserted ∧ P.role = some .relayOutput ∧
      1 ≤ pin.toNat ∧ pin.toNat ≤ 8 ∧ P.currentByte = some c ∧
      nb = if asserted then c &&& ~~~(1#8 <<< (pin.toNat - 1)) else c ||| (1#8 <<< (pin.toNat - 1))) →
    busOutcome s.nextAnswer = .ok → exec i s = .next t →
    t.nextAnswer = .ok b → t.ready (.tick s.active) = true → perform (.tick s.active) t = .next u →
    (b = nb → u.changeLog = s.changeLog) ∧
    (b ≠ nb → ∃ e, u.changeLog = s.changeLog ++ [e] ∧ e.port = s.active ∧ e.mask = b ^^^ nb))

/-- R162, first two laws: the change event a tick logs recovers the byte read from the cached byte and has as many entries
as bits differ; a tick that logs none read the cached byte. -/
def Obligations.ChangeEventsRecoverTheBytes : Prop :=
  ∀ (s t : State) (p : Nat) (P P' : Port) (old b : Byte), s.ready (.tick p) = true → s.Holds p P → P.currentByte = some old →
    s.nextAnswer = .ok b → perform (.tick p) s = .next t → t.Holds p P' →
    P'.currentByte = some b ∧
    (t.changeLog = s.changeLog ∧ b = old ∨
      ∃ e, t.changeLog = s.changeLog ++ [e] ∧ e.port = p ∧ b = old ^^^ e.mask ∧
        e.entries.length = popcount (b ^^^ old))

/-- R162, first, second and fourth laws, over any number of ticks: when a polling instance's ticks, on an initialised
transport, read the bytes `bytes` one after another, with no command between, the change events they log replay exactly the distinct consecutive bytes read:
each event's new byte is the previous byte `^ mask`, a run of equal bytes logs at most one event, and an event has
`popcount(mask)` pins. -/
def Obligations.PolledBytesReplay : Prop :=
  ∀ (bytes : List Byte) (s : State) (p : Nat) (P : Port) (old : Byte) (dev : DeviceAddress) (sp : SubPort)
    (rest : List Move) (answers : List Answer),
    s.Holds p P → P.phase = .configured → P.polling = true → P.cmd = none → P.currentByte = some old →
    P.deviceAddress = some dev → P.subPort = some sp → s.TransportReady →
    s.plan = List.replicate bytes.length (.tick p) ++ rest → s.answers = bytes.map .ok ++ answers →
    ∃ t P' events, Host.Core.run Sys2Proof.core bytes.length s = .next t ∧
      t.Holds p P' ∧ P'.currentByte = some (bytes.getLastD old) ∧
      t.changeLog = s.changeLog ++ events ∧
      List.scanl (fun b (e : ChangeEvent) => b ^^^ e.mask) old events = (old :: bytes).destutter (· ≠ ·) ∧
      ∀ e ∈ events, e.port = p ∧ e.delivered = P.subscribers ∧ e.mask ≠ 0x00 ∧ e.entries.length = popcount e.mask

/-- R160, R170: only ticks emit change events and report errors; every other step, and every command, leaves both logs as
they were. -/
def Obligations.OnlyTicksLogEvents : Prop :=
  (∀ (a : Move) (s t : State), (∀ p, a ≠ .tick p) → perform a s = .next t →
    t.changeLog = s.changeLog ∧ t.errorLog = s.errorLog) ∧
  (∀ (i : Instr) (s t : State), exec i s = .next t → t.changeLog = s.changeLog ∧ t.errorLog = s.errorLog) ∧
  (∀ (p : Nat) (s t : State), perform (.tick p) s = .next t →
    (t.errorLog = s.errorLog ∨ t.errorLog = s.errorLog ++ [⟨p, .transport⟩]) ∧
    (t.changeLog = s.changeLog ∨ ∃ e, t.changeLog = s.changeLog ++ [e] ∧ e.port = p ∧ e.mask ≠ 0x00) ∧
    (t.errorLog = s.errorLog ∨ t.changeLog = s.changeLog))

/-! ### Whole-machine rules -/

/-- R58: the registers the block accesses. A step appends at most one transaction to the bus trace, and never removes one;
a construction step's is a write of IOCON, IODIR, GPPU, IPOL or GPIO; a command's is a write or a read of GPIO; a tick's
is a read of GPIO; each at the issuing instance's own device and sub-port. -/
def Obligations.RegistersAccessed : Prop :=
  ∀ (a : Move) (s t : State), perform a s = .next t →
    t.busTrace = s.busTrace ∨
    ∃ r P dev sp, t.busTrace = s.busTrace ++ [r] ∧ r.port = a.port ∧ s.Holds a.port P ∧
      P.deviceAddress = some dev ∧ P.subPort = some sp ∧ r.dev = dev ∧
      match a with
      | .construct _ => r.kind = .write ∧ ∃ f, r.reg = s.cfg.regs.addr f sp ∧
          (f = .iocon ∨ f = .iodir ∨ f = .gppu ∨ f = .ipol ∨ f = .gpio)
      | .command _ => r.reg = s.cfg.regs.addr .gpio sp
      | .tick _ => r.kind = .read ∧ r.reg = s.cfg.regs.addr .gpio sp

/-- R92: a command that completes leaves a response word of status, four zero bits and data; data is the byte read for a
READ_PORT answered OK and 0x00 for every other response; and the instance is idle. Said of every command's meaning, and of
every ready move: the responses of command steps, Illegal words among them, and of construction steps; ticks give none. -/
def Obligations.ResponseWords : Prop :=
  (∀ (i : Instr) (s t : State) (P P' : Port), s.Holds s.active P → P.cmd ≠ none → exec i s = .next t →
    t.Holds s.active P' → (P'.cmd = none ∨ P'.response ≠ P.response) →
    P'.cmd = none ∧ ∃ (st : Status) (data : Byte) (r : ResponseWord), P'.response = some r ∧
      r.extractLsb' 12 4 = st.code ∧ r.extractLsb' 8 4 = 0#4 ∧ r.extractLsb' 0 8 = data ∧
      (¬(i = .readPort ∧ st = .ok) → data = 0x00) ∧ (i = .readPort ∧ st = .ok → s.nextAnswer = .ok data)) ∧
  (∀ (a : Move) (s t : State) (p : Nat) (P P' : Port), s.ready a = true → perform a s = .next t →
    s.Holds p P → t.Holds p P' →
    (P'.response ≠ P.response ∨ P'.cmd = none ∧ (P.cmd ≠ none ∨ a = .command p)) →
    (a = .command p ∨ a = .construct p) ∧ P'.cmd = none ∧
    ∃ (st : Status) (data : Byte) (r : ResponseWord), P'.response = some r ∧
      r.extractLsb' 12 4 = st.code ∧ r.extractLsb' 8 4 = 0#4 ∧ r.extractLsb' 0 8 = data ∧
      let readOk := a = .command p ∧ (∃ w, s.offered p = some w ∧ decode w = .command .readPort) ∧ st = .ok
      (¬readOk → data = 0x00) ∧ (readOk → s.nextAnswer = .ok data))

/-- R168: `violation` is set exactly by the responses whose status is 0x3 to 0xB, in the same step, and never cleared; a
construction step's responses (OK, INVALID_ROLE, TRANSPORT) and a tick never set it. -/
def Obligations.ViolationFlag : Prop :=
  ∀ (a : Move) (s t : State) (p : Nat) (P P' : Port), s.ready a = true → perform a s = .next t →
    s.Holds p P → t.Holds p P' →
    (a ≠ .command p → P'.violation = P.violation) ∧
    (a = .command p →
      (P'.cmd ≠ none → P'.violation = P.violation) ∧
      (P'.cmd = none → ∃ r, P'.response = some r ∧
        P'.violation = (P.violation || decide (3 ≤ (r.extractLsb' 12 4).toNat))))

/-- R28: the phase transitions are exactly UNCONFIGURED → CONSTRUCTING by a command, CONSTRUCTING → CONFIGURED and
CONSTRUCTING → FAILED by a construction step; UNCONFIGURED → FAILED in one step only for an unrecognised role whose
program is empty, where acceptance ends construction at once (R112). CONFIGURED and FAILED have no way out. The premise
`P.Inv` rules out only instances that are CONSTRUCTING and idle, which no run reaches (StepKeepsInvariant). -/
def Obligations.PhaseTransitions : Prop :=
  ∀ (a : Move) (s t : State) (p : Nat) (P P' : Port), s.ready a = true → perform a s = .next t →
    s.Holds p P → P.Inv s.cfg → t.Holds p P' → P'.phase ≠ P.phase →
    (a = .command p ∧ P.phase = .unconfigured ∧ P'.phase = .constructing ∧
      ∃ w dev sp code, s.offered p = some w ∧ decode w = .command (.construct dev sp code)) ∨
    (a = .command p ∧ P.phase = .unconfigured ∧ P'.phase = .failed ∧ s.cfg.invalidRoleWritesConfig = false ∧
      ∃ w dev sp code, s.offered p = some w ∧ decode w = .command (.construct dev sp code) ∧
        (code = 0b10 ∨ code = 0b11)) ∨
    (a = .construct p ∧ P.phase = .constructing ∧ (P'.phase = .configured ∨ P'.phase = .failed))

/-- R121, second part: after construction the address, sub-port, role and shadows never change. -/
def Obligations.ConfigurationFixedAfterConstruction : Prop :=
  ∀ (s t : State) (p : Nat) (P P' : Port), step s = .next t → s.Holds p P → t.Holds p P' → P.phase = .configured →
    P'.deviceAddress = P.deviceAddress ∧ P'.subPort = P.subPort ∧ P'.role = P.role ∧
    P'.directionByte = P.directionByte ∧ P'.pullupByte = P.pullupByte ∧ P'.polarityByte = P.polarityByte ∧
    P'.phase = .configured

/-- R171, R193: a FAILED instance answers every decodable command with PORT_FAILED, issuing no transaction, and stays
FAILED through every step. -/
def Obligations.FailedIsTerminal : Prop :=
  (∀ (i : Instr) (s : State) (P : Port), s.Holds s.active P → P.phase = .failed →
    exec i s = .next (s.withExecuting (P.answeredViolation 0x5000#16))) ∧
  (∀ (s t : State) (p : Nat) (P P' : Port), step s = .next t → s.Holds p P → t.Holds p P' → P.phase = .failed →
    P'.phase = .failed)

/-- R161, R155: the subscriber list only grows, by one id at its end, and only by a command step of its instance. -/
def Obligations.SubscribersOnlyGrow : Prop :=
  ∀ (a : Move) (s t : State) (p : Nat) (P P' : Port), perform a s = .next t → s.Holds p P → t.Holds p P' →
    P'.subscribers = P.subscribers ∨ (a = .command p ∧ ∃ id, P'.subscribers = P.subscribers ++ [id])

/-- R26, R71: `currentByte` changes only with a successful transaction on GPIO that moved its new value, or, to 0xFF, at
the role dispatch of a sensor construction. -/
def Obligations.CachedByteFollowsGpio : Prop :=
  ∀ (a : Move) (s t : State) (p : Nat) (P P' : Port), perform a s = .next t → s.Holds p P → t.Holds p P' →
    P'.currentByte ≠ P.currentByte →
    a.port = p ∧
    ((∃ r sp, t.busTrace = s.busTrace ++ [r] ∧ r.port = p ∧ P.subPort = some sp ∧ r.outcome = .ok ∧
        r.reg = s.cfg.regs.addr .gpio sp ∧ P'.currentByte = r.value) ∨
      (a = .construct p ∧ P.seq = some 0 ∧ P'.role = some .sensorInput ∧ P'.currentByte = some 0xFF))

/-- R180: a move of one instance leaves every other instance as it was, and R57: it leaves the parameters, the Register
Map among them. The rest is about the model's own representation of the environment (assumptions 1, 4, 5, 6, 7 and 24), and
no rule says it: a move leaves the plan and `transportReady`, and takes exactly one answer of the oracle's if it issues a
transaction (the script's head, or, with the script empty, one free value) and none if it does not; a command's meaning
leaves the host's words and `active` too. -/
def Obligations.OtherInstancesUntouched : Prop :=
  (∀ (a : Move) (s t : State), perform a s = .next t →
    t.cfg = s.cfg ∧ t.ports.length = s.ports.length ∧ t.plan = s.plan ∧ t.transportReady = s.transportReady ∧
    (∀ q, q ≠ a.port → t.ports[q]? = s.ports[q]?) ∧ TakesOneAnswer s t) ∧
  (∀ (i : Instr) (s t : State), exec i s = .next t →
    t.cfg = s.cfg ∧ t.active = s.active ∧ t.offers = s.offers ∧ t.plan = s.plan ∧
    t.transportReady = s.transportReady ∧ (∀ q, q ≠ s.active → t.ports[q]? = s.ports[q]?) ∧ TakesOneAnswer s t)

/-- R180: instances do not communicate: what a step does to its instance depends only on the parameters, that instance's
fields, the word offered to it and the oracle's answer. -/
def Obligations.InstancesDoNotCommunicate : Prop :=
  ∀ (a : Move) (s₁ s₂ t₁ t₂ : State), s₁.cfg = s₂.cfg → s₁.ports[a.port]? = s₂.ports[a.port]? →
    s₁.offered a.port = s₂.offered a.port → s₁.nextAnswer = s₂.nextAnswer →
    perform a s₁ = .next t₁ → perform a s₂ = .next t₂ → t₁.ports[a.port]? = t₂.ports[a.port]?

/-- R67: construction steps of two instances may be interleaved either way: with every write answered alike, both orders
leave the same instances. -/
def Obligations.ConstructionStepsInterleave : Prop :=
  ∀ (s s₁ t₁ s₂ t₂ : State) (p q : Nat), p ≠ q →
    perform (.construct p) s = .next s₁ → perform (.construct q) s₁ = .next t₁ →
    perform (.construct q) s = .next s₂ → perform (.construct p) s₂ = .next t₂ →
    (∀ x ∈ [s, s₁, s₂], busOutcome x.nextAnswer = .ok) →
    t₁.ports = t₂.ports

/-- R90: a well-formed command is never answered INVALID_ROLE (R119), PIN_OUT_OF_RANGE (R128) or INVALID_INTERVAL (R141),
and a command that is not well-formed, given to a CONFIGURED instance, is refused: CONSTRUCT with ALREADY_CONFIGURED
(0x4000, R112), TOGGLE_RELAY with PIN_OUT_OF_RANGE (0x6000, R128), POLL_START with INVALID_INTERVAL (0x9000, R141). -/
def Obligations.OperandRefusals : Prop :=
  (∀ (i : Instr) (s t : State) (P P' : Port), i.wellFormed = true → s.Holds s.active P → P.cmd ≠ none →
    exec i s = .next t → t.Holds s.active P' → P'.cmd = none →
    P'.response ≠ some 0x1000#16 ∧ P'.response ≠ some 0x6000#16 ∧ P'.response ≠ some 0x9000#16) ∧
  (∀ (i : Instr) (s : State) (P : Port), i.wellFormed = false → s.Holds s.active P → P.phase = .configured →
    ∃ word, exec i s = .next (s.withExecuting (P.answeredViolation word)) ∧
      match i with
      | .construct _ _ _ => word = 0x4000#16
      | .toggleRelay _ _ => word = 0x6000#16
      | .pollStart _ => word = 0x9000#16
      | .readPort | .writePort _ | .pollStop | .subscribe _ => False)

/-- R168, R185: a host inside the contract never sets `violation`: a recognised operation with well-formed operands on a
CONFIGURED instance (TOGGLE_RELAY only on relays, POLL_START only when not polling, SUBSCRIBE only below the capacity), or
CONSTRUCT on an UNCONFIGURED one. -/
def Obligations.ContractKeepsViolationClear : Prop :=
  ∀ (i : Instr) (s t : State) (P P' : Port), s.Holds s.active P → exec i s = .next t → t.Holds s.active P' →
    (match i with
      | .construct _ _ _ => P.phase = .unconfigured
      | .readPort => P.phase = .configured
      | .writePort _ => P.phase = .configured
      | .toggleRelay pin _ =>
        P.phase = .configured ∧ 1 ≤ pin.toNat ∧ pin.toNat ≤ 8 ∧ P.role = some .relayOutput
      | .pollStart ms => P.phase = .configured ∧ ms ≠ 0 ∧ P.polling = false
      | .pollStop => P.phase = .configured
      | .subscribe _ => P.phase = .configured ∧ s.cfg.maxSubscribers ≠ some P.subscribers.length) →
    P'.violation = P.violation

/-! ### The invariant -/

/-- The invariant holds at the start of a run under every configuration, the standard one among them. -/
def Obligations.InvariantAtReset : Prop := (∀ c : Config, (State.boot c).Inv) ∧ State.reset.Inv

/-- Every step keeps the invariant, whatever the host, the oracle and the arbiter do. -/
def Obligations.StepKeepsInvariant : Prop := ∀ s t : State, s.Inv → step s = .next t → t.Inv

/-- R22: from a state of the invariant no rule reads a ⊥ field: the step never stops, whatever the host, the oracle and
the arbiter do. -/
def Obligations.InvariantStatesStepOn : Prop := ∀ s : State, s.Inv → s.StepsOn

/-- R28, R114, R173: under weak fairness every accepted construction ends, in CONFIGURED or in FAILED. It rests on R184's
"The model has no transaction that never ends" (assumption 22, DEDUCED): hardware without a bounded timeout may block. -/
def Obligations.ConstructionEnds : Prop :=
  ∀ run : Nat → State, IsRun run → WeaklyFair run → (run 0).Inv →
    ∀ (n p : Nat) (P : Port), (run n).Holds p P → P.phase = .constructing →
      ∃ (m : Nat) (P' : Port), n ≤ m ∧ (run m).Holds p P' ∧ (P'.phase = .configured ∨ P'.phase = .failed)

/-- R114, R121 under weak fairness (R173) and `reliable_bus` (R196): when no transaction of the run fails, every accepted
construction of a recognised role ends in CONFIGURED. It too rests on R184's "The model has no transaction that never ends"
(assumption 22, DEDUCED). -/
def Obligations.ReliableConstructionSucceeds : Prop :=
  ∀ run : Nat → State, IsRun run → WeaklyFair run → (run 0).Inv → ReliableBus run →
    ∀ (n p : Nat) (P : Port) (w : Word), (run n).Holds p P → P.phase = .constructing → P.cmd = some w →
      roleOf (roleField w) ≠ none →
      ∃ (m : Nat) (P' : Port), n ≤ m ∧ (run m).Holds p P' ∧ P'.phase = .configured

/-- R185: in a run from reset with no violation recorded, no instance is ever answered with a status the spec chose itself
(0x3 to 0xB). -/
def Obligations.NoViolationMeansNoOwnStatus : Prop :=
  ∀ run : Nat → State, IsRun run → (run 0).AtReset → NoViolation run →
    ∀ (n : Nat), ∀ P ∈ (run n).ports, ∀ r, P.response = some r →
      r.extractLsb' 12 4 = 0x0#4 ∨ r.extractLsb' 12 4 = 0x1#4 ∨ r.extractLsb' 12 4 = 0x2#4

/-! ### Launch premises -/

/-- R194: on a transport that is not initialised every transaction a step issues fails, and no step initialises it. That
the fact is a field of the state is the model's choice (assumption 24). -/
def Obligations.UninitialisedTransportFails : Prop :=
  ∀ s t : State, s.transportReady = false → step s = .next t →
    t.transportReady = false ∧
    (t.busTrace = s.busTrace ∨ ∃ r, t.busTrace = s.busTrace ++ [r] ∧ r.outcome = .fail)
end

