-- ==== Sys2Proof/Laws/Codec.lean ====
section
/-! SUPPORT. The Bit Codec lane by lane (R105): what each function does to one bit of a byte. -/

namespace Sys2Proof.Machine

/-- `1 << i` has exactly bit `i` set. -/
theorem getLsbD_one_shiftLeft (i j : Fin 8) : (1#8 <<< i.val).getLsbD j = decide (j = i) := by
  revert i j; decide

/-- `setBit` writes lane `i` and passes the other lanes through (R105). -/
theorem setBit_lane (b : Byte) (i j : Fin 8) (x : Bool) :
    (setBit b i x).getLsbD j = if j = i then x else b.getLsbD j := by
  cases x with
  | false =>
    rw [show setBit b i false = b &&& ~~~(1#8 <<< i.val) from rfl, BitVec.getLsbD_and, BitVec.getLsbD_not,
      getLsbD_one_shiftLeft]
    by_cases h : j = i <;> simp [h]
  | true =>
    rw [show setBit b i true = b ||| (1#8 <<< i.val) from rfl, BitVec.getLsbD_or, getLsbD_one_shiftLeft]
    by_cases h : j = i <;> simp [h]

/-- Two bytes with equal lanes are equal. -/
theorem byte_ext {a b : Byte} (h : ∀ j : Fin 8, a.getLsbD j = b.getLsbD j) : a = b :=
  BitVec.eq_of_getLsbD_eq fun i hi => h ⟨i, hi⟩

/-- The mask lane of `diffBytes` (R105). -/
theorem diffBytes_mask_lane (new old : Byte) (j : Nat) :
    (diffBytes new old).mask.getLsbD j = (new.getLsbD j ^^ old.getLsbD j) := by
  simp [diffBytes]

/-- The levels lane of `diffBytes` (R105). -/
theorem diffBytes_levels_lane (new old : Byte) (j : Nat) :
    (diffBytes new old).levels.getLsbD j = (new.getLsbD j && (new.getLsbD j ^^ old.getLsbD j)) := by
  simp [diffBytes]

/-- A change set has one entry for each 1 bit of its mask. -/
theorem changeEntries_length (mask levels : Byte) : (changeEntries mask levels).length = popcount mask := by
  simp [changeEntries, popcount]

/-- The entries of a change set. -/
theorem mem_changeEntries {mask levels : Byte} {pin : Nat} {level : Bool} :
    (pin, level) ∈ changeEntries mask levels ↔
      ∃ i, i < 8 ∧ mask.getLsbD i = true ∧ pin = i + 1 ∧ level = levels.getLsbD i := by
  simp only [changeEntries, List.mem_map, List.mem_filter, List.mem_range, Prod.mk.injEq]
  exact ⟨fun ⟨i, ⟨hi, hm⟩, hp, hl⟩ => ⟨i, hi, hm, hp.symm, hl.symm⟩,
    fun ⟨i, hi, hm, hp, hl⟩ => ⟨i, ⟨hi, hm⟩, hp.symm, hl.symm⟩⟩

end Sys2Proof.Machine
end

