-- ==== Sys2Proof/Laws/Decode.lean ====
section
/-! SUPPORT. The encoder's words field by field, from which decoding and the opcode table follow. -/

namespace Sys2Proof

/-- Two words of equal bits are equal. -/
theorem word_ext {n : Nat} {a b : BitVec n} (h : ∀ i, i < n → a.getLsbD i = b.getLsbD i) : a = b :=
  BitVec.eq_of_getLsbD_eq h

/-- The bits of a `BitVec.ofBool`. -/
theorem getLsbD_ofBool (x : Bool) (i : Nat) : (BitVec.ofBool x).getLsbD i = (decide (i = 0) && x) := by
  cases x <;> cases i <;> simp [BitVec.getLsbD, Nat.testBit_succ]

/-- The sub-port bit, read back. -/
@[simp] theorem subPortOfBit_toBit (sp : SubPort) : subPortOfBit sp.toBit = sp := by cases sp <;> rfl

/-- A sub-port read from a bit, written back. -/
@[simp] theorem toBit_subPortOfBit (x : Bool) : (subPortOfBit x).toBit = x := by cases x <;> rfl

/-- Commands whose reserved bits must be zero (R81). -/
theorem whenReservedZero_eq_command {z : Bool} {i j : Instr} :
    whenReservedZero z i = .command j ↔ z = true ∧ i = j := by
  cases z <;> simp [whenReservedZero]

end Sys2Proof
end

