-- ==== Sys2Proof/Laws/State.lean ====
section
/-! SUPPORT. What each update of the state leaves of each field, so that no later proof unfolds a record update. -/

namespace Sys2Proof.Machine

/-! ### setPort -/

@[simp] theorem State.setPort_cfg (s : State) (p : Nat) (P : Port) : (s.setPort p P).cfg = s.cfg := rfl
@[simp] theorem State.setPort_transportReady (s : State) (p : Nat) (P : Port) :
    (s.setPort p P).transportReady = s.transportReady := rfl
@[simp] theorem State.setPort_ports (s : State) (p : Nat) (P : Port) : (s.setPort p P).ports = s.ports.set p P := rfl
@[simp] theorem State.setPort_busTrace (s : State) (p : Nat) (P : Port) : (s.setPort p P).busTrace = s.busTrace := rfl
@[simp] theorem State.setPort_changeLog (s : State) (p : Nat) (P : Port) : (s.setPort p P).changeLog = s.changeLog := rfl
@[simp] theorem State.setPort_errorLog (s : State) (p : Nat) (P : Port) : (s.setPort p P).errorLog = s.errorLog := rfl
@[simp] theorem State.setPort_active (s : State) (p : Nat) (P : Port) : (s.setPort p P).active = s.active := rfl
@[simp] theorem State.setPort_offers (s : State) (p : Nat) (P : Port) : (s.setPort p P).offers = s.offers := rfl
@[simp] theorem State.setPort_answers (s : State) (p : Nat) (P : Port) : (s.setPort p P).answers = s.answers := rfl
@[simp] theorem State.setPort_plan (s : State) (p : Nat) (P : Port) : (s.setPort p P).plan = s.plan := rfl
@[simp] theorem State.setPort_draws (s : State) (p : Nat) (P : Port) : (s.setPort p P).draws = s.draws := rfl

/-- Setting an instance's fields and reading them back. -/
theorem State.port?_setPort_self {s : State} {p : Nat} {Q : Port} (h : s.port? p = some Q) (P : Port) :
    (s.setPort p P).port? p = some P := by
  have hl : p < s.ports.length := (List.getElem?_eq_some_iff.mp h).1
  simp [State.port?, hl]

/-- Setting an instance's fields leaves every other instance alone. -/
theorem State.port?_setPort_of_ne {p q : Nat} (h : q ≠ p) (s : State) (P : Port) :
    (s.setPort p P).port? q = s.port? q := by
  simp [State.port?, List.getElem?_set_ne (Ne.symm h)]

/-! ### dropAnswer: only the oracle's script and the count of free values change -/

@[simp] theorem State.dropAnswer_cfg (s : State) : s.dropAnswer.cfg = s.cfg := by
  unfold State.dropAnswer; split <;> rfl
@[simp] theorem State.dropAnswer_transportReady (s : State) : s.dropAnswer.transportReady = s.transportReady := by
  unfold State.dropAnswer; split <;> rfl
@[simp] theorem State.dropAnswer_ports (s : State) : s.dropAnswer.ports = s.ports := by
  unfold State.dropAnswer; split <;> rfl
@[simp] theorem State.dropAnswer_busTrace (s : State) : s.dropAnswer.busTrace = s.busTrace := by
  unfold State.dropAnswer; split <;> rfl
@[simp] theorem State.dropAnswer_changeLog (s : State) : s.dropAnswer.changeLog = s.changeLog := by
  unfold State.dropAnswer; split <;> rfl
@[simp] theorem State.dropAnswer_errorLog (s : State) : s.dropAnswer.errorLog = s.errorLog := by
  unfold State.dropAnswer; split <;> rfl
@[simp] theorem State.dropAnswer_active (s : State) : s.dropAnswer.active = s.active := by
  unfold State.dropAnswer; split <;> rfl
@[simp] theorem State.dropAnswer_offers (s : State) : s.dropAnswer.offers = s.offers := by
  unfold State.dropAnswer; split <;> rfl
@[simp] theorem State.dropAnswer_plan (s : State) : s.dropAnswer.plan = s.plan := by
  unfold State.dropAnswer; split <;> rfl

/-! ### record -/

@[simp] theorem State.record_cfg (s : State) (r : BusRecord) : (s.record r).cfg = s.cfg := by simp [State.record]
@[simp] theorem State.record_transportReady (s : State) (r : BusRecord) :
    (s.record r).transportReady = s.transportReady := by simp [State.record]
@[simp] theorem State.record_ports (s : State) (r : BusRecord) : (s.record r).ports = s.ports := by simp [State.record]
@[simp] theorem State.record_busTrace (s : State) (r : BusRecord) : (s.record r).busTrace = s.busTrace ++ [r] := by
  simp [State.record]
@[simp] theorem State.record_changeLog (s : State) (r : BusRecord) : (s.record r).changeLog = s.changeLog := by
  simp [State.record]
@[simp] theorem State.record_errorLog (s : State) (r : BusRecord) : (s.record r).errorLog = s.errorLog := by
  simp [State.record]
@[simp] theorem State.record_answers (s : State) (r : BusRecord) : (s.record r).answers = s.dropAnswer.answers := rfl
@[simp] theorem State.record_draws (s : State) (r : BusRecord) : (s.record r).draws = s.dropAnswer.draws := rfl
@[simp] theorem State.record_active (s : State) (r : BusRecord) : (s.record r).active = s.active := by
  simp [State.record]
@[simp] theorem State.record_offers (s : State) (r : BusRecord) : (s.record r).offers = s.offers := by
  simp [State.record]
@[simp] theorem State.record_plan (s : State) (r : BusRecord) : (s.record r).plan = s.plan := by simp [State.record]
@[simp] theorem State.record_port? (s : State) (r : BusRecord) (p : Nat) : (s.record r).port? p = s.port? p := by
  simp [State.port?]

/-! ### emit and reportError -/

@[simp] theorem State.emit_cfg (s : State) (p : Nat) (P : Port) (m l : Byte) : (s.emit p P m l).cfg = s.cfg := rfl
@[simp] theorem State.emit_transportReady (s : State) (p : Nat) (P : Port) (m l : Byte) :
    (s.emit p P m l).transportReady = s.transportReady := rfl
@[simp] theorem State.emit_ports (s : State) (p : Nat) (P : Port) (m l : Byte) : (s.emit p P m l).ports = s.ports := rfl
@[simp] theorem State.emit_busTrace (s : State) (p : Nat) (P : Port) (m l : Byte) :
    (s.emit p P m l).busTrace = s.busTrace := rfl
@[simp] theorem State.emit_changeLog (s : State) (p : Nat) (P : Port) (m l : Byte) :
    (s.emit p P m l).changeLog = s.changeLog ++ [⟨p, m, l, P.subscribers⟩] := rfl
@[simp] theorem State.emit_errorLog (s : State) (p : Nat) (P : Port) (m l : Byte) :
    (s.emit p P m l).errorLog = s.errorLog := rfl
@[simp] theorem State.emit_active (s : State) (p : Nat) (P : Port) (m l : Byte) : (s.emit p P m l).active = s.active := rfl
@[simp] theorem State.emit_offers (s : State) (p : Nat) (P : Port) (m l : Byte) : (s.emit p P m l).offers = s.offers := rfl
@[simp] theorem State.emit_answers (s : State) (p : Nat) (P : Port) (m l : Byte) :
    (s.emit p P m l).answers = s.answers := rfl
@[simp] theorem State.emit_plan (s : State) (p : Nat) (P : Port) (m l : Byte) : (s.emit p P m l).plan = s.plan := rfl
@[simp] theorem State.emit_draws (s : State) (p : Nat) (P : Port) (m l : Byte) : (s.emit p P m l).draws = s.draws := rfl

@[simp] theorem State.reportError_cfg (s : State) (p : Nat) (st : Status) : (s.reportError p st).cfg = s.cfg := rfl
@[simp] theorem State.reportError_transportReady (s : State) (p : Nat) (st : Status) :
    (s.reportError p st).transportReady = s.transportReady := rfl
@[simp] theorem State.reportError_ports (s : State) (p : Nat) (st : Status) : (s.reportError p st).ports = s.ports := rfl
@[simp] theorem State.reportError_busTrace (s : State) (p : Nat) (st : Status) :
    (s.reportError p st).busTrace = s.busTrace := rfl
@[simp] theorem State.reportError_changeLog (s : State) (p : Nat) (st : Status) :
    (s.reportError p st).changeLog = s.changeLog := rfl
@[simp] theorem State.reportError_errorLog (s : State) (p : Nat) (st : Status) :
    (s.reportError p st).errorLog = s.errorLog ++ [⟨p, st⟩] := rfl
@[simp] theorem State.reportError_active (s : State) (p : Nat) (st : Status) :
    (s.reportError p st).active = s.active := rfl
@[simp] theorem State.reportError_offers (s : State) (p : Nat) (st : Status) :
    (s.reportError p st).offers = s.offers := rfl
@[simp] theorem State.reportError_answers (s : State) (p : Nat) (st : Status) :
    (s.reportError p st).answers = s.answers := rfl
@[simp] theorem State.reportError_plan (s : State) (p : Nat) (st : Status) : (s.reportError p st).plan = s.plan := rfl
@[simp] theorem State.reportError_draws (s : State) (p : Nat) (st : Status) :
    (s.reportError p st).draws = s.draws := rfl

/-! ### accept -/

@[simp] theorem State.accept_cfg (s : State) (p : Nat) (P : Port) (w : Word) : (s.accept p P w).cfg = s.cfg := rfl
@[simp] theorem State.accept_transportReady (s : State) (p : Nat) (P : Port) (w : Word) :
    (s.accept p P w).transportReady = s.transportReady := rfl
@[simp] theorem State.accept_ports (s : State) (p : Nat) (P : Port) (w : Word) :
    (s.accept p P w).ports = s.ports.set p { P with cmd := some w } := rfl
@[simp] theorem State.accept_busTrace (s : State) (p : Nat) (P : Port) (w : Word) :
    (s.accept p P w).busTrace = s.busTrace := rfl
@[simp] theorem State.accept_changeLog (s : State) (p : Nat) (P : Port) (w : Word) :
    (s.accept p P w).changeLog = s.changeLog := rfl
@[simp] theorem State.accept_errorLog (s : State) (p : Nat) (P : Port) (w : Word) :
    (s.accept p P w).errorLog = s.errorLog := rfl
@[simp] theorem State.accept_active (s : State) (p : Nat) (P : Port) (w : Word) : (s.accept p P w).active = p := rfl
@[simp] theorem State.accept_offers (s : State) (p : Nat) (P : Port) (w : Word) :
    (s.accept p P w).offers = s.offers.eraseP fun o => o.port == p := rfl
@[simp] theorem State.accept_answers (s : State) (p : Nat) (P : Port) (w : Word) :
    (s.accept p P w).answers = s.answers := rfl
@[simp] theorem State.accept_plan (s : State) (p : Nat) (P : Port) (w : Word) : (s.accept p P w).plan = s.plan := rfl
@[simp] theorem State.accept_draws (s : State) (p : Nat) (P : Port) (w : Word) : (s.accept p P w).draws = s.draws := rfl

@[simp] theorem State.accept_dropAnswer_answers (s : State) (p : Nat) (P : Port) (w : Word) :
    (s.accept p P w).dropAnswer.answers = s.dropAnswer.answers := by
  unfold State.dropAnswer; cases h : s.answers <;> simp [h]
@[simp] theorem State.accept_dropAnswer_draws (s : State) (p : Nat) (P : Port) (w : Word) :
    (s.accept p P w).dropAnswer.draws = s.dropAnswer.draws := by
  unfold State.dropAnswer; cases h : s.answers <;> simp [h]

/-- The executing instance of an accepted command holds the word. -/
theorem State.port?_accept {s : State} {p : Nat} {P : Port} (h : s.port? p = some P) (w : Word) :
    (s.accept p P w).port? p = some { P with cmd := some w } :=
  State.port?_setPort_self h _

/-! ### respond: the instance's fields -/

@[simp] theorem Port.respond_cmd (P : Port) (st : Status) (d : Byte) : (P.respond st d).cmd = none := rfl
@[simp] theorem Port.respond_response (P : Port) (st : Status) (d : Byte) :
    (P.respond st d).response = some (responseWord st d) := rfl
@[simp] theorem Port.respond_violation (P : Port) (st : Status) (d : Byte) :
    (P.respond st d).violation = violationAfter P.violation st := rfl
@[simp] theorem Port.respond_deviceAddress (P : Port) (st : Status) (d : Byte) :
    (P.respond st d).deviceAddress = P.deviceAddress := rfl
@[simp] theorem Port.respond_subPort (P : Port) (st : Status) (d : Byte) : (P.respond st d).subPort = P.subPort := rfl
@[simp] theorem Port.respond_role (P : Port) (st : Status) (d : Byte) : (P.respond st d).role = P.role := rfl
@[simp] theorem Port.respond_currentByte (P : Port) (st : Status) (d : Byte) :
    (P.respond st d).currentByte = P.currentByte := rfl
@[simp] theorem Port.respond_directionByte (P : Port) (st : Status) (d : Byte) :
    (P.respond st d).directionByte = P.directionByte := rfl
@[simp] theorem Port.respond_pullupByte (P : Port) (st : Status) (d : Byte) :
    (P.respond st d).pullupByte = P.pullupByte := rfl
@[simp] theorem Port.respond_polarityByte (P : Port) (st : Status) (d : Byte) :
    (P.respond st d).polarityByte = P.polarityByte := rfl
@[simp] theorem Port.respond_phase (P : Port) (st : Status) (d : Byte) : (P.respond st d).phase = P.phase := rfl
@[simp] theorem Port.respond_seq (P : Port) (st : Status) (d : Byte) : (P.respond st d).seq = P.seq := rfl
@[simp] theorem Port.respond_polling (P : Port) (st : Status) (d : Byte) : (P.respond st d).polling = P.polling := rfl
@[simp] theorem Port.respond_interval (P : Port) (st : Status) (d : Byte) : (P.respond st d).interval = P.interval := rfl
@[simp] theorem Port.respond_subscribers (P : Port) (st : Status) (d : Byte) :
    (P.respond st d).subscribers = P.subscribers := rfl

end Sys2Proof.Machine
end

