-- ==== Sys2Proof/Laws/Ops.lean ====
section
/-! SUPPORT. One lemma per shared operation that says everything it can do; later proofs cite these and do not unfold the
operations. -/

namespace Sys2Proof.Machine

/-- Two next states are one state, read with the later one first. -/
theorem next_eq_next {a b : State} : (Host.Outcome.next a : Result) = .next b ↔ b = a :=
  ⟨fun h => (Host.Outcome.next.inj h).symm, fun h => h ▸ rfl⟩

/-- An operation on an instance answers a next state only if the instance exists. -/
theorem State.withPort_next {s t : State} {p : Nat} {k : Port → Result} :
    s.withPort p k = .next t ↔ ∃ P, s.port? p = some P ∧ k P = .next t := by
  unfold State.withPort
  split <;> simp_all

/-- On an instance that exists the operation is its body. -/
theorem State.withPort_of_port? {s : State} {p : Nat} {P : Port} (h : s.port? p = some P) (k : Port → Result) :
    s.withPort p k = k P := by
  simp [State.withPort, h]

/-- A read of a field that may hold ⊥ answers a next state only if the field has a value (R22). -/
theorem need_next {α : Type} {f : FieldName} {v : Option α} {k : α → Result} {t : State} :
    need f v k = .next t ↔ ∃ x, v = some x ∧ k x = .next t := by
  unfold need
  split <;> simp_all

@[simp] theorem need_some {α : Type} (f : FieldName) (x : α) (k : α → Result) : need f (some x) k = k x := rfl

/-- `Respond` always answers a next state. -/
theorem State.respond_eq (s : State) (p : Nat) (P : Port) (st : Status) (d : Byte) :
    s.respond p P st d = .next (s.setPort p (P.respond st d)) := rfl

/-- `raise` is `Respond` with data 0x00 (R166). -/
theorem State.raise_eq (s : State) (p : Nat) (P : Port) (st : Status) :
    s.raise p P st = .next (s.setPort p (P.respond st 0x00)) := rfl

/-- The gate of every command but CONSTRUCT: a refusal for a FAILED or UNCONFIGURED instance, the body otherwise. -/
theorem State.requireConfigured_next {s t : State} {p : Nat} {P : Port} {k : Result} :
    s.requireConfigured p P k = .next t ↔
      (P.phase = .failed ∧ t = s.setPort p (P.respond .portFailed 0x00)) ∨
      (P.phase = .unconfigured ∧ t = s.setPort p (P.respond .notConfigured 0x00)) ∨
      ((P.phase = .constructing ∨ P.phase = .configured) ∧ k = .next t) := by
  unfold State.requireConfigured
  split <;> rename_i h <;> simp [h, State.raise_eq, eq_comm]

@[simp] theorem State.requireConfigured_failed {P : Port} (h : P.phase = .failed) (s : State) (p : Nat) (k : Result) :
    s.requireConfigured p P k = .next (s.setPort p (P.respond .portFailed 0x00)) := by
  simp [State.requireConfigured, h, State.raise_eq]

@[simp] theorem State.requireConfigured_unconfigured {P : Port} (h : P.phase = .unconfigured) (s : State) (p : Nat)
    (k : Result) : s.requireConfigured p P k = .next (s.setPort p (P.respond .notConfigured 0x00)) := by
  simp [State.requireConfigured, h, State.raise_eq]

@[simp] theorem State.requireConfigured_configured {P : Port} (h : P.phase = .configured) (s : State) (p : Nat)
    (k : Result) : s.requireConfigured p P k = k := by
  simp [State.requireConfigured, h]

/-- A register is located only if the instance has an address and a sub-port. -/
theorem State.locate_next {s t : State} {P : Port} {f : Family} {k : DeviceAddress → Byte → Result} :
    s.locate P f k = .next t ↔
      ∃ dev sp, P.deviceAddress = some dev ∧ P.subPort = some sp ∧ k dev (s.cfg.regs.addr f sp) = .next t := by
  simp [State.locate, need_next]

theorem State.locate_of_some {P : Port} {dev : DeviceAddress} {sp : SubPort} (hd : P.deviceAddress = some dev)
    (hs : P.subPort = some sp) (s : State) (f : Family) (k : DeviceAddress → Byte → Result) :
    s.locate P f k = k dev (s.cfg.regs.addr f sp) := by
  simp [State.locate, hd, hs]

/-- Everything a GPIO write can do (R125): located, one recorded write, and the cached byte on success only. -/
theorem State.writeGpio_next {s t : State} {p : Nat} {P : Port} {v : Byte} :
    s.writeGpio p P v = .next t ↔
      ∃ dev sp, P.deviceAddress = some dev ∧ P.subPort = some sp ∧
        ((busOutcome s.nextAnswer = .fail ∧
            t = (s.record ⟨p, .write, dev, s.cfg.regs.addr .gpio sp, some v, .fail⟩).setPort p
              (P.respond .transport 0x00)) ∨
          (busOutcome s.nextAnswer = .ok ∧
            t = (s.record ⟨p, .write, dev, s.cfg.regs.addr .gpio sp, some v, .ok⟩).setPort p
              ({ P with currentByte := some v }.respond .ok 0x00))) := by
  simp only [State.writeGpio, State.locate_next, State.regWrite]
  cases h : busOutcome s.nextAnswer <;> simp [State.raise_eq, State.respond_eq, eq_comm]

/-- The oracle's answer, read back from its outcome. -/
theorem busOutcome_eq_fail {a : Answer} : busOutcome a = .fail ↔ a = .fail := by
  cases a <;> simp [busOutcome]

theorem busOutcome_eq_ok {a : Answer} : busOutcome a = .ok ↔ ∃ b, a = .ok b := by
  cases a <;> simp [busOutcome]

@[simp] theorem busOutcome_ok (b : Byte) : busOutcome (.ok b) = .ok := rfl
@[simp] theorem busOutcome_fail : busOutcome .fail = .fail := rfl
@[simp] theorem busByte_ok (b : Byte) : busByte (.ok b) = some b := rfl
@[simp] theorem busByte_fail : busByte .fail = none := rfl

/-- The next answer depends on the transport, the oracle's script and the count of free values alone. -/
theorem State.nextAnswer_congr {s t : State} (hr : s.transportReady = t.transportReady) (ha : s.answers = t.answers)
    (hd : s.draws = t.draws) : s.nextAnswer = t.nextAnswer := by
  simp [State.nextAnswer, State.oracleChoice, hr, ha, hd]

/-- An initialised transport gives the oracle's scripted answer. -/
theorem State.nextAnswer_of_script {s : State} {a : Answer} {rest : List Answer} (hr : s.transportReady = true)
    (ha : s.answers = a :: rest) : s.nextAnswer = a := by
  simp [State.nextAnswer, State.oracleChoice, hr, ha]

/-- A transport that is not initialised fails the next transaction (R194). -/
theorem State.nextAnswer_of_not_ready {s : State} (hr : s.transportReady = false) : s.nextAnswer = .fail := by
  simp [State.nextAnswer, hr]

@[simp] theorem State.setPort_nextAnswer (s : State) (p : Nat) (P : Port) : (s.setPort p P).nextAnswer = s.nextAnswer := rfl
@[simp] theorem State.accept_nextAnswer (s : State) (p : Nat) (P : Port) (w : Word) :
    (s.accept p P w).nextAnswer = s.nextAnswer := rfl

/-- A pin in 1..8 is bit `pin - 1` (R102). -/
theorem pinIndex_of_range {pin : BitVec 4} (h : 1 ≤ pin.toNat ∧ pin.toNat ≤ 8) :
    pinIndex pin = some ⟨pin.toNat - 1, by omega⟩ := by
  simp [pinIndex, h]

/-- A field value outside 1..8 names no pin (R102). -/
theorem pinIndex_of_not_range {pin : BitVec 4} (h : ¬(1 ≤ pin.toNat ∧ pin.toNat ≤ 8)) : pinIndex pin = none := by
  simp only [pinIndex, h, dite_false]

/-- The capacity check of SUBSCRIBE (R154). -/
theorem atCapacity_iff {c : Config} {l : List Byte} : atCapacity c l = true ↔ c.maxSubscribers = some l.length := by
  unfold atCapacity
  cases c.maxSubscribers with
  | none => simp
  | some n => simpa using ⟨Eq.symm, Eq.symm⟩

/-- The role codes of the recognised roles (R83). -/
theorem roleOf_eq_none {code : RoleCode} : roleOf code = none ↔ code = 0b10#2 ∨ code = 0b11#2 := by
  revert code; decide

/-- A recognised role's program is not empty, whatever the parameters (R113). -/
theorem prog_ne_nil_of_role {c : Config} {code : RoleCode} (h : roleOf code ≠ none) : (prog c code).length ≠ 0 := by
  unfold prog
  split <;> simp_all

end Sys2Proof.Machine
end

