-- ==== Sys2Proof/Laws/Exec.lean ====
section
/-! SUPPORT. What each command, the construction step and the tick can do when they answer a next state: one inversion
lemma per meaning. Every invariant and frame is derived from these. -/

namespace Sys2Proof.Machine

/-- Everything the end of a construction can do (R119, R121). -/
theorem State.finishConstruction_next {s t : State} {p : Nat} {P : Port} {code : RoleCode} :
    s.finishConstruction p P code = .next t ↔
      (roleOf code ≠ none ∧ t = s.setPort p ({ P with phase := .configured, seq := none }.respond .ok 0x00)) ∨
      (roleOf code = none ∧ t = s.setPort p ({ P with phase := .failed, seq := none }.respond .invalidRole 0x00)) := by
  unfold State.finishConstruction
  cases roleOf code <;> simp [-Host.Outcome.next.injEq, State.raise_eq, State.respond_eq, next_eq_next]

/-- The fields CONSTRUCT writes at acceptance (R112). -/
def Port.accepted (P : Port) (dev : DeviceAddress) (sp : SubPort) : Port :=
  { P with deviceAddress := some dev, subPort := some sp, phase := .constructing, seq := some 0 }

/-- Everything CONSTRUCT can do (R112, R119). -/
theorem execConstruct_next {s t : State} {dev : DeviceAddress} {sp : SubPort} {code : RoleCode} :
    execConstruct dev sp code s = .next t ↔ ∃ P, s.port? s.active = some P ∧
      ((P.phase = .failed ∧ t = s.setPort s.active (P.respond .portFailed 0x00)) ∨
       (P.phase = .configured ∧ t = s.setPort s.active (P.respond .alreadyConfigured 0x00)) ∨
       ((P.phase = .unconfigured ∨ P.phase = .constructing) ∧ (prog s.cfg code).length ≠ 0 ∧
          t = s.setPort s.active (P.accepted dev sp)) ∨
       ((P.phase = .unconfigured ∨ P.phase = .constructing) ∧ (prog s.cfg code).length = 0 ∧ roleOf code = none ∧
          t = s.setPort s.active ({ P.accepted dev sp with phase := .failed, seq := none }.respond .invalidRole 0x00))) := by
  have hrole : (prog s.cfg code).length = 0 → roleOf code = none := fun h =>
    Classical.byContradiction fun hr => prog_ne_nil_of_role hr h
  simp only [execConstruct, State.withPort_next]
  refine exists_congr fun P => and_congr_right fun _ => ?_
  cases hp : P.phase <;> simp [-Host.Outcome.next.injEq, State.raise_eq, next_eq_next]
  all_goals
    by_cases hl : (prog s.cfg code).length = 0
    · have hr := hrole hl
      have hn : prog s.cfg code = [] := List.length_eq_zero_iff.mp hl
      simp [hn, State.finishConstruction_next, hr, Port.accepted]
    · have hn : prog s.cfg code ≠ [] := fun h => hl (by simp [-Host.Outcome.next.injEq, h])
      simp [-Host.Outcome.next.injEq, hn, Port.accepted, next_eq_next]

/-- Everything READ_PORT can do (R123, R124). -/
theorem execReadPort_next {s t : State} :
    execReadPort s = .next t ↔ ∃ P, s.port? s.active = some P ∧
      ((P.phase = .failed ∧ t = s.setPort s.active (P.respond .portFailed 0x00)) ∨
       (P.phase = .unconfigured ∧ t = s.setPort s.active (P.respond .notConfigured 0x00)) ∨
       ((P.phase = .constructing ∨ P.phase = .configured) ∧
          ∃ dev sp, P.deviceAddress = some dev ∧ P.subPort = some sp ∧
            ((s.nextAnswer = .fail ∧
                t = (s.record ⟨s.active, .read, dev, s.cfg.regs.addr .gpio sp, none, .fail⟩).setPort s.active
                  (P.respond .transport 0x00)) ∨
              ∃ b, s.nextAnswer = .ok b ∧
                t = (s.record ⟨s.active, .read, dev, s.cfg.regs.addr .gpio sp, some b, .ok⟩).setPort s.active
                  ({ P with currentByte := some b }.respond .ok b)))) := by
  simp only [execReadPort, State.withPort_next, State.requireConfigured_next, State.locate_next, State.regRead]
  refine exists_congr fun P => and_congr_right fun _ => or_congr_right (or_congr_right (and_congr_right fun _ => ?_))
  cases h : s.nextAnswer <;> simp [-Host.Outcome.next.injEq, State.raise_eq, State.respond_eq, next_eq_next]

/-- Everything WRITE_PORT can do (R125, R126). -/
theorem execWritePort_next {s t : State} {v : Byte} :
    execWritePort v s = .next t ↔ ∃ P, s.port? s.active = some P ∧
      ((P.phase = .failed ∧ t = s.setPort s.active (P.respond .portFailed 0x00)) ∨
       (P.phase = .unconfigured ∧ t = s.setPort s.active (P.respond .notConfigured 0x00)) ∨
       ((P.phase = .constructing ∨ P.phase = .configured) ∧ s.writeGpio s.active P v = .next t)) := by
  simp only [execWritePort, State.withPort_next, State.requireConfigured_next]

/-- Everything TOGGLE_RELAY can do (R127 to R129). -/
theorem execToggleRelay_next {s t : State} {pin : BitVec 4} {asserted : Bool} :
    execToggleRelay pin asserted s = .next t ↔ ∃ P, s.port? s.active = some P ∧
      ((P.phase = .failed ∧ t = s.setPort s.active (P.respond .portFailed 0x00)) ∨
       (P.phase = .unconfigured ∧ t = s.setPort s.active (P.respond .notConfigured 0x00)) ∨
       ((P.phase = .constructing ∨ P.phase = .configured) ∧
          ((pinIndex pin = none ∧ t = s.setPort s.active (P.respond .pinOutOfRange 0x00)) ∨
           ∃ i, pinIndex pin = some i ∧
             ((P.role = some .sensorInput ∧ t = s.setPort s.active (P.respond .unsupportedOnSensor 0x00)) ∨
              (P.role = some .relayOutput ∧ ∃ b, P.currentByte = some b ∧
                s.writeGpio s.active P (setBit b i (relayBit asserted)) = .next t))))) := by
  simp only [execToggleRelay, State.withPort_next, State.requireConfigured_next]
  refine exists_congr fun P => and_congr_right fun _ => or_congr_right (or_congr_right (and_congr_right fun _ => ?_))
  cases hi : pinIndex pin with
  | none => simp [-Host.Outcome.next.injEq, State.raise_eq, next_eq_next]
  | some i =>
    simp only [need_next]
    constructor
    · rintro ⟨r, hr, h⟩
      refine .inr ⟨i, rfl, ?_⟩
      cases r with
      | sensorInput => exact .inl ⟨hr, next_eq_next.mp h⟩
      | relayOutput => exact .inr ⟨hr, need_next.mp h⟩
    · intro h
      simp only [reduceCtorEq, false_and, Option.some.injEq, exists_eq_left', false_or] at h
      rcases h with ⟨hr, rfl⟩ | ⟨hr, h⟩
      · exact ⟨_, hr, rfl⟩
      · exact ⟨_, hr, need_next.mpr h⟩

/-- Everything POLL_START can do (R140, R141). -/
theorem execPollStart_next {s t : State} {ms : Interval} :
    execPollStart ms s = .next t ↔ ∃ P, s.port? s.active = some P ∧
      ((P.phase = .failed ∧ t = s.setPort s.active (P.respond .portFailed 0x00)) ∨
       (P.phase = .unconfigured ∧ t = s.setPort s.active (P.respond .notConfigured 0x00)) ∨
       ((P.phase = .constructing ∨ P.phase = .configured) ∧
          ((ms = 0 ∧ t = s.setPort s.active (P.respond .invalidInterval 0x00)) ∨
           (ms ≠ 0 ∧ P.polling = true ∧ t = s.setPort s.active (P.respond .alreadyPolling 0x00)) ∨
           (ms ≠ 0 ∧ P.polling = false ∧
              t = s.setPort s.active ({ P with interval := some ms, polling := true }.respond .ok 0x00))))) := by
  simp only [execPollStart, State.withPort_next, State.requireConfigured_next]
  refine exists_congr fun P => and_congr_right fun _ => or_congr_right (or_congr_right (and_congr_right fun _ => ?_))
  by_cases hm : ms = 0#16
  · simp [-Host.Outcome.next.injEq, hm, State.raise_eq, next_eq_next]
  · cases hp : P.polling <;> simp [-Host.Outcome.next.injEq, hm, State.raise_eq, State.respond_eq, next_eq_next]

/-- Everything POLL_STOP can do (R142, R143). -/
theorem execPollStop_next {s t : State} :
    execPollStop s = .next t ↔ ∃ P, s.port? s.active = some P ∧
      ((P.phase = .failed ∧ t = s.setPort s.active (P.respond .portFailed 0x00)) ∨
       (P.phase = .unconfigured ∧ t = s.setPort s.active (P.respond .notConfigured 0x00)) ∨
       ((P.phase = .constructing ∨ P.phase = .configured) ∧
          t = s.setPort s.active ({ P with polling := false }.respond .ok 0x00))) := by
  simp only [execPollStop, State.withPort_next, State.requireConfigured_next, State.respond_eq,
    next_eq_next]

/-- Everything SUBSCRIBE can do (R154). -/
theorem execSubscribe_next {s t : State} {id : Byte} :
    execSubscribe id s = .next t ↔ ∃ P, s.port? s.active = some P ∧
      ((P.phase = .failed ∧ t = s.setPort s.active (P.respond .portFailed 0x00)) ∨
       (P.phase = .unconfigured ∧ t = s.setPort s.active (P.respond .notConfigured 0x00)) ∨
       ((P.phase = .constructing ∨ P.phase = .configured) ∧
          ((s.cfg.maxSubscribers = some P.subscribers.length ∧
              t = s.setPort s.active (P.respond .subscriberOverflow 0x00)) ∨
           (s.cfg.maxSubscribers ≠ some P.subscribers.length ∧
              t = s.setPort s.active ({ P with subscribers := P.subscribers ++ [id] }.respond .ok 0x00))))) := by
  simp only [execSubscribe, State.withPort_next, State.requireConfigured_next]
  refine exists_congr fun P => and_congr_right fun _ => or_congr_right (or_congr_right (and_congr_right fun _ => ?_))
  by_cases hc : atCapacity s.cfg P.subscribers = true
  · simp [-Host.Outcome.next.injEq, hc, atCapacity_iff.mp hc, State.raise_eq, next_eq_next]
  · have : ¬s.cfg.maxSubscribers = some P.subscribers.length := fun h => hc (atCapacity_iff.mpr h)
    simp [-Host.Outcome.next.injEq, hc, this, State.respond_eq, next_eq_next]

/-- Everything a construction step can do: nothing outside its enabling condition (R114), and otherwise one write, with
failure (R120), the next step, or the end of construction (R119, R121). -/
theorem constructionStep_next {s t : State} {p : Nat} :
    constructionStep p s = .next t ↔ ∃ P, s.port? p = some P ∧
      ((P.sequencerEnabled s.cfg = false ∧ t = s) ∨
       (P.sequencerEnabled s.cfg = true ∧ ∃ w k, P.cmd = some w ∧ P.seq = some k ∧
          ∃ f v dev sp, (prog s.cfg (roleField w))[k]? = some (f, v) ∧
            P.deviceAddress = some dev ∧ P.subPort = some sp ∧
            ((busOutcome s.nextAnswer = .fail ∧
                t = (s.record ⟨p, .write, dev, s.cfg.regs.addr f sp, some v, .fail⟩).setPort p
                  ({ P with phase := .failed, seq := none }.respond .transport 0x00)) ∨
              (busOutcome s.nextAnswer = .ok ∧ k + 1 ≠ (prog s.cfg (roleField w)).length ∧
                t = (s.record ⟨p, .write, dev, s.cfg.regs.addr f sp, some v, .ok⟩).setPort p
                  (P.afterConstructionWrite (roleField w) k f v)) ∨
              (busOutcome s.nextAnswer = .ok ∧ k + 1 = (prog s.cfg (roleField w)).length ∧
                (s.record ⟨p, .write, dev, s.cfg.regs.addr f sp, some v, .ok⟩).finishConstruction p
                  (P.afterConstructionWrite (roleField w) k f v) (roleField w) = .next t)))) := by
  simp only [constructionStep, State.withPort_next]
  refine exists_congr fun P => and_congr_right fun _ => ?_
  cases he : P.sequencerEnabled s.cfg with
  | false => simp [-Host.Outcome.next.injEq, next_eq_next]
  | true =>
    simp only [if_true, need_next]
    constructor
    · rintro ⟨w, hw, k, hk, h⟩
      refine .inr ⟨trivial, w, k, hw, hk, ?_⟩
      cases hg : (prog s.cfg (roleField w))[k]? with
      | none =>
        have hlt : k < (prog s.cfg (roleField w)).length := by
          simp only [Port.sequencerEnabled, hk, hw, Bool.and_eq_true, decide_eq_true_eq] at he
          exact he.2
        exact absurd (List.getElem?_eq_none_iff.mp hg) (by omega)
      | some fv =>
        obtain ⟨f, v⟩ := fv
        simp only [hg, State.locate_next, State.regWrite] at h
        obtain ⟨dev, sp, hd, hs, h⟩ := h
        refine ⟨f, v, dev, sp, rfl, hd, hs, ?_⟩
        cases ho : busOutcome s.nextAnswer with
        | fail => simpa [-Host.Outcome.next.injEq, ho, State.raise_eq, next_eq_next] using h
        | ok =>
          by_cases hl : k + 1 = (prog s.cfg (roleField w)).length
          · simpa [ho, hl] using h
          · simpa [-Host.Outcome.next.injEq, ho, hl, next_eq_next] using h
    · rintro (⟨h, -⟩ | ⟨-, w, k, hw, hk, f, v, dev, sp, hg, hd, hs, h⟩)
      · exact absurd h (by simp)
      · refine ⟨w, hw, k, hk, ?_⟩
        simp only [hg, State.locate_next, State.regWrite]
        refine ⟨dev, sp, hd, hs, ?_⟩
        rcases h with ⟨ho, rfl⟩ | ⟨ho, hl, rfl⟩ | ⟨ho, hl, h⟩
        · simp [ho, State.raise_eq]
        · simp [ho, hl]
        · simpa [ho, hl] using h

/-- Everything a tick can do: nothing outside its enabling condition (R146), and otherwise one read, with an error event
(R150), no event (R151) or one change event (R148). -/
theorem tick_next {s t : State} {p : Nat} :
    Sys2Proof.Machine.tick p s = .next t ↔ ∃ P, s.port? p = some P ∧
      ((P.tickEnabled = false ∧ t = s) ∨
       (P.tickEnabled = true ∧ ∃ old dev sp, P.currentByte = some old ∧ P.deviceAddress = some dev ∧
          P.subPort = some sp ∧
          ((s.nextAnswer = .fail ∧
              t = (s.record ⟨p, .read, dev, s.cfg.regs.addr .gpio sp, none, .fail⟩).reportError p .transport) ∨
            ∃ b, s.nextAnswer = .ok b ∧
              ((b = old ∧
                  t = (s.record ⟨p, .read, dev, s.cfg.regs.addr .gpio sp, some b, .ok⟩).setPort p
                    { P with currentByte := some b }) ∨
                (b ≠ old ∧
                  t = ((s.record ⟨p, .read, dev, s.cfg.regs.addr .gpio sp, some b, .ok⟩).setPort p
                    { P with currentByte := some b }).emit p P (b ^^^ old)
                      (emittedLevels s.cfg.emitInvert b (diffBytes b old))))))) := by
  simp only [Sys2Proof.Machine.tick, State.withPort_next]
  refine exists_congr fun P => and_congr_right fun _ => ?_
  cases he : P.tickEnabled with
  | false => simp [-Host.Outcome.next.injEq, next_eq_next]
  | true =>
    simp only [if_true, need_next, State.locate_next, State.regRead]
    simp only [reduceCtorEq, false_and, true_and, false_or, exists_and_left]
    refine exists_congr fun old => and_congr_right fun _ => ?_
    refine exists_congr fun dev => and_congr_right fun _ => exists_congr fun sp => and_congr_right fun _ => ?_
    cases ha : s.nextAnswer with
    | fail => simp [-Host.Outcome.next.injEq, next_eq_next]
    | ok b =>
      by_cases hz : b = old
      · simp [-Host.Outcome.next.injEq, hz, diffBytes, next_eq_next]
      · simp [-Host.Outcome.next.injEq, hz, diffBytes, next_eq_next]

/-- The shape of every command's next state: at most one transaction, and the executing instance's fields. -/
theorem exec_next_shape {i : Instr} {s t : State} (h : exec i s = .next t) :
    ∃ P P', s.port? s.active = some P ∧
      (t = s.setPort s.active P' ∨ ∃ r : BusRecord, r.port = s.active ∧ t = (s.record r).setPort s.active P') := by
  have hw : ∀ {P v}, s.port? s.active = some P → s.writeGpio s.active P v = .next t →
      ∃ P P', s.port? s.active = some P ∧
        (t = s.setPort s.active P' ∨ ∃ r : BusRecord, r.port = s.active ∧ t = (s.record r).setPort s.active P') := by
    intro P v hP hw
    obtain ⟨dev, sp, -, -, ⟨-, rfl⟩ | ⟨-, rfl⟩⟩ := State.writeGpio_next.mp hw
    · exact ⟨P, _, hP, .inr ⟨_, rfl, rfl⟩⟩
    · exact ⟨P, _, hP, .inr ⟨_, rfl, rfl⟩⟩
  cases i with
  | construct dev sp role =>
    obtain ⟨P, hP, ⟨-, rfl⟩ | ⟨-, rfl⟩ | ⟨-, -, rfl⟩ | ⟨-, -, -, rfl⟩⟩ := execConstruct_next.mp h <;>
      exact ⟨P, _, hP, .inl rfl⟩
  | readPort =>
    obtain ⟨P, hP, ⟨-, rfl⟩ | ⟨-, rfl⟩ | ⟨-, dev, sp, -, -, ⟨-, rfl⟩ | ⟨b, -, rfl⟩⟩⟩ := execReadPort_next.mp h
    · exact ⟨P, _, hP, .inl rfl⟩
    · exact ⟨P, _, hP, .inl rfl⟩
    · exact ⟨P, _, hP, .inr ⟨_, rfl, rfl⟩⟩
    · exact ⟨P, _, hP, .inr ⟨_, rfl, rfl⟩⟩
  | writePort v =>
    obtain ⟨P, hP, ⟨-, rfl⟩ | ⟨-, rfl⟩ | ⟨-, h⟩⟩ := execWritePort_next.mp h
    · exact ⟨P, _, hP, .inl rfl⟩
    · exact ⟨P, _, hP, .inl rfl⟩
    · exact hw hP h
  | toggleRelay pin a =>
    obtain ⟨P, hP, ⟨-, rfl⟩ | ⟨-, rfl⟩ | ⟨-, ⟨-, rfl⟩ | ⟨j, -, ⟨-, rfl⟩ | ⟨-, b, -, h⟩⟩⟩⟩ := execToggleRelay_next.mp h
    · exact ⟨P, _, hP, .inl rfl⟩
    · exact ⟨P, _, hP, .inl rfl⟩
    · exact ⟨P, _, hP, .inl rfl⟩
    · exact ⟨P, _, hP, .inl rfl⟩
    · exact hw hP h
  | pollStart ms =>
    obtain ⟨P, hP, ⟨-, rfl⟩ | ⟨-, rfl⟩ | ⟨-, ⟨-, rfl⟩ | ⟨-, -, rfl⟩ | ⟨-, -, rfl⟩⟩⟩ := execPollStart_next.mp h <;>
      exact ⟨P, _, hP, .inl rfl⟩
  | pollStop =>
    obtain ⟨P, hP, ⟨-, rfl⟩ | ⟨-, rfl⟩ | ⟨-, rfl⟩⟩ := execPollStop_next.mp h <;> exact ⟨P, _, hP, .inl rfl⟩
  | subscribe id =>
    obtain ⟨P, hP, ⟨-, rfl⟩ | ⟨-, rfl⟩ | ⟨-, ⟨-, rfl⟩ | ⟨-, rfl⟩⟩⟩ := execSubscribe_next.mp h <;>
      exact ⟨P, _, hP, .inl rfl⟩

end Sys2Proof.Machine
end

