-- ==== Sys2Proof/Laws/Step.lean ====
section
/-! SUPPORT. What the arbiter and a step can do: the choice is a ready move and touches only the environment's script, and
a command step is acceptance followed by one meaning or by ILLEGAL_COMMAND. -/

namespace Sys2Proof.Machine

/-! ### Readiness -/

/-- Readiness depends on the parameters, the instances and the host's words alone. -/
theorem State.ready_congr {s t : State} (hc : s.cfg = t.cfg) (hp : s.ports = t.ports) (ho : s.offers = t.offers)
    (a : Move) : s.ready a = t.ready a := by
  cases a <;> simp [State.ready, State.port?, State.offered, hc, hp, ho]

/-- A command step is ready: the instance is there, idle, and has a word offered (R111). -/
theorem State.ready_command {s : State} {p : Nat} :
    s.ready (.command p) = true ↔ ∃ P w, s.port? p = some P ∧ P.cmd = none ∧ s.offered p = some w := by
  simp only [State.ready]
  cases h : s.port? p with
  | none => simp
  | some P => cases hw : s.offered p <;> simp [Port.busy]

/-- A construction step is ready: the instance is there and its sequencer enabled (R114). -/
theorem State.ready_construct {s : State} {p : Nat} :
    s.ready (.construct p) = true ↔ ∃ P, s.port? p = some P ∧ P.sequencerEnabled s.cfg = true := by
  simp only [State.ready]
  cases h : s.port? p <;> simp

/-- A tick is ready: the instance is there and its tick enabled (R146). -/
theorem State.ready_tick {s : State} {p : Nat} :
    s.ready (.tick p) = true ↔ ∃ P, s.port? p = some P ∧ P.tickEnabled = true := by
  simp only [State.ready]
  cases h : s.port? p <;> simp

/-- The enabling condition of a tick (R146). -/
theorem Port.tickEnabled_iff {P : Port} :
    P.tickEnabled = true ↔ P.phase = .configured ∧ P.polling = true ∧ P.cmd = none := by
  simp [Port.tickEnabled, Port.busy, and_assoc]

/-- The list of ready moves lists exactly the ready moves. -/
theorem State.mem_readyMoves {s : State} {a : Move} : a ∈ s.readyMoves ↔ s.ready a = true := by
  simp only [State.readyMoves, List.mem_filter, List.mem_flatMap, List.mem_range, and_iff_right_iff_imp]
  intro h
  have hlt : ∀ {p : Nat} {P : Port}, s.port? p = some P → p < s.ports.length := fun h =>
    (List.getElem?_eq_some_iff.mp h).1
  cases a with
  | command p =>
    obtain ⟨P, _, hP, -⟩ := State.ready_command.mp h
    exact ⟨p, hlt hP, by simp⟩
  | construct p =>
    obtain ⟨P, hP, -⟩ := State.ready_construct.mp h
    exact ⟨p, hlt hP, by simp⟩
  | tick p =>
    obtain ⟨P, hP, -⟩ := State.ready_tick.mp h
    exact ⟨p, hlt hP, by simp⟩

/-! ### The arbiter -/

/-- The arbiter takes the next entry of the environment's plan if it is ready. -/
theorem State.arbitrate_plan {s : State} {a : Move} {rest : List Move} (hp : s.plan = a :: rest)
    (hr : s.ready a = true) : s.arbitrate = some (a, { s with plan := rest }) := by
  simp [State.arbitrate, hp, hr, Option.filter]

/-- The arbiter's choice is a ready move, and only the plan and the count of free values change. -/
theorem State.arbitrate_some {s s' : State} {a : Move} (h : s.arbitrate = some (a, s')) :
    s.ready a = true ∧ ∃ d, s' = { s with plan := s.plan.tail, draws := d } := by
  unfold State.arbitrate at h
  split at h
  · rename_i b hb
    obtain ⟨rfl, rfl⟩ := by simpa using h
    exact ⟨(Option.filter_eq_some_iff.mp hb).2, s.draws, rfl⟩
  · split at h
    · exact absurd h (by simp)
    · rename_i b hb
      obtain ⟨rfl, rfl⟩ := by simpa using h
      exact ⟨State.mem_readyMoves.mp (by simp [hb]), s.draws, rfl⟩
    · rename_i b c rest hb
      simp only [Option.some.injEq, Prod.mk.injEq] at h
      obtain ⟨ha, rfl⟩ := h
      refine ⟨State.mem_readyMoves.mp ?_, _, rfl⟩
      have hlt : Config.freePick s.draws % (b :: c :: rest).length < (b :: c :: rest).length :=
        Nat.mod_lt _ (by simp)
      rw [List.getD_eq_getElem _ _ hlt] at ha
      exact hb ▸ ha ▸ List.getElem_mem hlt

/-- The arbiter has no choice exactly when nothing is ready. -/
theorem State.arbitrate_none {s : State} : s.arbitrate = none ↔ ∀ a, s.ready a = false := by
  constructor
  · intro h a
    by_contra hr
    have hm := State.mem_readyMoves.mpr (Bool.not_eq_false _ ▸ hr : s.ready a = true)
    unfold State.arbitrate at h
    split at h
    · exact absurd h (by simp)
    · split at h <;> simp_all
  · intro h
    cases ha : s.arbitrate with
    | none => rfl
    | some x =>
      obtain ⟨a, s'⟩ := x
      exact absurd (State.arbitrate_some ha).1 (by simp [h a])

/-! ### Steps -/

/-- A step is the arbiter's move on the state the arbiter leaves, or waiting. -/
theorem step_cases (s : State) :
    (∃ a d, s.arbitrate = some (a, { s with plan := s.plan.tail, draws := d }) ∧ s.ready a = true ∧
        step s = perform a { s with plan := s.plan.tail, draws := d }) ∨
      (s.arbitrate = none ∧ step s = .next s) := by
  cases h : s.arbitrate with
  | none => exact .inr ⟨rfl, by simp [step, takeTurn, h]⟩
  | some x =>
    obtain ⟨a, s'⟩ := x
    obtain ⟨hr, d, rfl⟩ := State.arbitrate_some h
    exact .inl ⟨a, d, rfl, hr, by simp [step, takeTurn, h]⟩

/-- A planned move that is ready goes. -/
theorem step_plan {s : State} {a : Move} {rest : List Move} (hp : s.plan = a :: rest) (hr : s.ready a = true) :
    step s = perform a { s with plan := rest } := by
  simp [step, takeTurn, State.arbitrate_plan hp hr]

/-- A command step is acceptance of the offered word, then ILLEGAL_COMMAND or the command's meaning (R110). -/
theorem commandStep_eq {s : State} {p : Nat} {P : Port} {w : Word} (hP : s.port? p = some P)
    (hw : s.offered p = some w) :
    commandStep p s = match decode w with
      | .illegal _ => .next ((s.accept p P w).setPort p ({ P with cmd := some w }.respond .illegalCommand 0x00))
      | .command i => exec i (s.accept p P w) := by
  cases hd : decode w <;>
    simp only [commandStep, State.withPort_of_port? hP, hw, hd, State.withPort_of_port? (State.port?_accept hP w),
      State.raise_eq]

/-- Everything a command step can do. -/
theorem commandStep_next {s t : State} {p : Nat} :
    commandStep p s = .next t ↔ ∃ P, s.port? p = some P ∧
      ((s.offered p = none ∧ t = s) ∨
        ∃ w, s.offered p = some w ∧
          ((∃ why, decode w = .illegal why ∧
              t = (s.accept p P w).setPort p ({ P with cmd := some w }.respond .illegalCommand 0x00)) ∨
            ∃ i, decode w = .command i ∧ exec i (s.accept p P w) = .next t)) := by
  constructor
  · intro h
    obtain ⟨P, hP, h'⟩ := State.withPort_next.mp h
    refine ⟨P, hP, ?_⟩
    cases hw : s.offered p with
    | none => exact .inl ⟨rfl, by simpa [-Host.Outcome.next.injEq, hw, next_eq_next] using h'⟩
    | some w =>
      rw [commandStep_eq hP hw] at h
      refine .inr ⟨w, rfl, ?_⟩
      cases hd : decode w with
      | illegal why => exact .inl ⟨why, rfl, by simpa [-Host.Outcome.next.injEq, hd, next_eq_next] using h⟩
      | command i => exact .inr ⟨i, rfl, by simpa [hd] using h⟩
  · rintro ⟨P, hP, ⟨hw, rfl⟩ | ⟨w, hw, ⟨why, hd, rfl⟩ | ⟨i, hd, h⟩⟩⟩
    · simp [commandStep, State.withPort_of_port? hP, hw]
    · simp [commandStep_eq hP hw, hd]
    · simpa [commandStep_eq hP hw, hd] using h

end Sys2Proof.Machine
end

