-- ==== Sys2Proof/Laws/Effects.lean ====
section
/-! SUPPORT. What a command and a step do to their instance, one constructor for each alternative of the rules: whatever
holds of every alternative is proved by cases on these two relations, with no unfolding of the machine. -/

namespace Sys2Proof.Machine

/-! ### The instance after a construction write -/

/-- The fields a construction write never changes, and the step it moves on to (R114 to R116). -/
theorem Port.afterConstructionWrite_fixed (P : Port) (code : RoleCode) (k : Nat) (f : Family) (v : Byte) :
    let P' := P.afterConstructionWrite code k f v
    P'.deviceAddress = P.deviceAddress ∧ P'.subPort = P.subPort ∧ P'.phase = P.phase ∧ P'.seq = some (k + 1) ∧
      P'.cmd = P.cmd ∧ P'.polling = P.polling ∧ P'.interval = P.interval ∧ P'.subscribers = P.subscribers ∧
      P'.violation = P.violation ∧ P'.response = P.response := by
  unfold Port.afterConstructionWrite Port.applyWrite Port.dispatchRole
  by_cases hk : k = 0 <;> cases f <;> cases roleOf code with
  | none => simp [hk]
  | some r => cases r <;> simp [hk]

/-- What a construction write leaves in the fields it can change: the shadow of the family it wrote (R115), and the role
dispatch after step 0 (R116). -/
theorem Port.afterConstructionWrite_changed (P : Port) (code : RoleCode) (k : Nat) (f : Family) (v : Byte) :
    let P' := P.afterConstructionWrite code k f v
    P'.role = (if k = 0 ∧ roleOf code ≠ none then roleOf code else P.role) ∧
      P'.currentByte = (if k = 0 ∧ roleOf code = some .sensorInput then some 0xFF
        else if f = .gpio then some v else P.currentByte) ∧
      P'.directionByte = (if f = .iodir then some v else P.directionByte) ∧
      P'.pullupByte = (if f = .gppu then some v else P.pullupByte) ∧
      P'.polarityByte = (if f = .ipol then some v else P.polarityByte) := by
  unfold Port.afterConstructionWrite Port.applyWrite Port.dispatchRole
  by_cases hk : k = 0 <;> cases f <;> cases roleOf code with
  | none => simp [hk]
  | some r => cases r <;> simp [hk, initialCurrent]

@[simp] theorem Port.afterConstructionWrite_deviceAddress (P : Port) (code : RoleCode) (k : Nat) (f : Family) (v : Byte) :
    (P.afterConstructionWrite code k f v).deviceAddress = P.deviceAddress :=
  (P.afterConstructionWrite_fixed code k f v).1
@[simp] theorem Port.afterConstructionWrite_subPort (P : Port) (code : RoleCode) (k : Nat) (f : Family) (v : Byte) :
    (P.afterConstructionWrite code k f v).subPort = P.subPort :=
  (P.afterConstructionWrite_fixed code k f v).2.1
@[simp] theorem Port.afterConstructionWrite_phase (P : Port) (code : RoleCode) (k : Nat) (f : Family) (v : Byte) :
    (P.afterConstructionWrite code k f v).phase = P.phase :=
  (P.afterConstructionWrite_fixed code k f v).2.2.1
@[simp] theorem Port.afterConstructionWrite_seq (P : Port) (code : RoleCode) (k : Nat) (f : Family) (v : Byte) :
    (P.afterConstructionWrite code k f v).seq = some (k + 1) :=
  (P.afterConstructionWrite_fixed code k f v).2.2.2.1
@[simp] theorem Port.afterConstructionWrite_cmd (P : Port) (code : RoleCode) (k : Nat) (f : Family) (v : Byte) :
    (P.afterConstructionWrite code k f v).cmd = P.cmd :=
  (P.afterConstructionWrite_fixed code k f v).2.2.2.2.1
@[simp] theorem Port.afterConstructionWrite_polling (P : Port) (code : RoleCode) (k : Nat) (f : Family) (v : Byte) :
    (P.afterConstructionWrite code k f v).polling = P.polling :=
  (P.afterConstructionWrite_fixed code k f v).2.2.2.2.2.1
@[simp] theorem Port.afterConstructionWrite_interval (P : Port) (code : RoleCode) (k : Nat) (f : Family) (v : Byte) :
    (P.afterConstructionWrite code k f v).interval = P.interval :=
  (P.afterConstructionWrite_fixed code k f v).2.2.2.2.2.2.1
@[simp] theorem Port.afterConstructionWrite_subscribers (P : Port) (code : RoleCode) (k : Nat) (f : Family) (v : Byte) :
    (P.afterConstructionWrite code k f v).subscribers = P.subscribers :=
  (P.afterConstructionWrite_fixed code k f v).2.2.2.2.2.2.2.1
@[simp] theorem Port.afterConstructionWrite_violation (P : Port) (code : RoleCode) (k : Nat) (f : Family) (v : Byte) :
    (P.afterConstructionWrite code k f v).violation = P.violation :=
  (P.afterConstructionWrite_fixed code k f v).2.2.2.2.2.2.2.2.1
@[simp] theorem Port.afterConstructionWrite_response (P : Port) (code : RoleCode) (k : Nat) (f : Family) (v : Byte) :
    (P.afterConstructionWrite code k f v).response = P.response :=
  (P.afterConstructionWrite_fixed code k f v).2.2.2.2.2.2.2.2.2

@[simp] theorem Port.afterConstructionWrite_role (P : Port) (code : RoleCode) (k : Nat) (f : Family) (v : Byte) :
    (P.afterConstructionWrite code k f v).role = if k = 0 ∧ roleOf code ≠ none then roleOf code else P.role :=
  (P.afterConstructionWrite_changed code k f v).1
@[simp] theorem Port.afterConstructionWrite_currentByte (P : Port) (code : RoleCode) (k : Nat) (f : Family) (v : Byte) :
    (P.afterConstructionWrite code k f v).currentByte = if k = 0 ∧ roleOf code = some .sensorInput then some 0xFF
      else if f = .gpio then some v else P.currentByte :=
  (P.afterConstructionWrite_changed code k f v).2.1
@[simp] theorem Port.afterConstructionWrite_directionByte (P : Port) (code : RoleCode) (k : Nat) (f : Family) (v : Byte) :
    (P.afterConstructionWrite code k f v).directionByte = if f = .iodir then some v else P.directionByte :=
  (P.afterConstructionWrite_changed code k f v).2.2.1
@[simp] theorem Port.afterConstructionWrite_pullupByte (P : Port) (code : RoleCode) (k : Nat) (f : Family) (v : Byte) :
    (P.afterConstructionWrite code k f v).pullupByte = if f = .gppu then some v else P.pullupByte :=
  (P.afterConstructionWrite_changed code k f v).2.2.2.1
@[simp] theorem Port.afterConstructionWrite_polarityByte (P : Port) (code : RoleCode) (k : Nat) (f : Family) (v : Byte) :
    (P.afterConstructionWrite code k f v).polarityByte = if f = .ipol then some v else P.polarityByte :=
  (P.afterConstructionWrite_changed code k f v).2.2.2.2

/-- The nine rows of the construction programs: role code, step, family and value (R113). -/
theorem prog_row {c : Config} {code : RoleCode} {k : Nat} {f : Family} {v : Byte}
    (h : (prog c code)[k]? = some (f, v)) :
    (k = 0 ∧ f = .iocon ∧ v = 0x22) ∨
    (roleOf code = some .sensorInput ∧
      (k = 1 ∧ f = .iodir ∧ v = 0xFF ∨ k = 2 ∧ f = .gppu ∧ v = 0xFF ∨ k = 3 ∧ f = .ipol ∧ v = 0x00)) ∨
    (roleOf code = some .relayOutput ∧ (k = 1 ∧ f = .iodir ∧ v = 0x00 ∨ k = 2 ∧ f = .gpio ∧ v = 0xFF)) := by
  unfold prog at h
  cases hr : roleOf code with
  | none =>
    cases hc : c.invalidRoleWritesConfig <;> rcases k with _ | k <;>
      simp_all [configValue]
  | some r =>
    cases r <;> rcases k with _ | _ | _ | _ | k <;>
      simp_all [configValue, sensorDirection, sensorPullup, sensorPolarity, relayDirection, relayInitial]

/-- The length of a construction program (R113). -/
theorem prog_length (c : Config) (code : RoleCode) :
    (prog c code).length = match roleOf code with
      | some .sensorInput => 4
      | some .relayOutput => 3
      | none => if c.invalidRoleWritesConfig then 1 else 0 := by
  unfold prog
  cases roleOf code with
  | none => cases c.invalidRoleWritesConfig <;> rfl
  | some r => cases r <;> rfl

/-! ### Effects -/

/-- `s` after an instance's fields became `P'` and the transaction `r`, if there was one. -/
def State.withEffect (s : State) (p : Nat) (P' : Port) : Option BusRecord → State
  | none => s.setPort p P'
  | some r => (s.record r).setPort p P'

/-- `CommandEffect c ans p i P P' r`: under the parameters `c` and the oracle's next answer `ans`, the command `i` takes
instance `p` from the fields `P` to `P'` and issues the transaction `r`, if any. -/
inductive CommandEffect (c : Config) (ans : Answer) (p : Nat) : Instr → Port → Port → Option BusRecord → Prop where
  | portFailed (i : Instr) (P : Port) (h : P.phase = .failed) :
      CommandEffect c ans p i P (P.respond .portFailed 0x00) none
  | notConfigured (i : Instr) (P : Port) (h : P.phase = .unconfigured) (hi : ∀ d sp r, i ≠ .construct d sp r) :
      CommandEffect c ans p i P (P.respond .notConfigured 0x00) none
  | alreadyConfigured (d : DeviceAddress) (sp : SubPort) (r : RoleCode) (P : Port) (h : P.phase = .configured) :
      CommandEffect c ans p (.construct d sp r) P (P.respond .alreadyConfigured 0x00) none
  | accepted (d : DeviceAddress) (sp : SubPort) (r : RoleCode) (P : Port)
      (h : P.phase = .unconfigured ∨ P.phase = .constructing) (hl : (prog c r).length ≠ 0) :
      CommandEffect c ans p (.construct d sp r) P (P.accepted d sp) none
  | emptyProgram (d : DeviceAddress) (sp : SubPort) (r : RoleCode) (P : Port)
      (h : P.phase = .unconfigured ∨ P.phase = .constructing) (hl : (prog c r).length = 0) (hr : roleOf r = none) :
      CommandEffect c ans p (.construct d sp r) P
        ({ P.accepted d sp with phase := .failed, seq := none }.respond .invalidRole 0x00) none
  | readFailed (P : Port) (d : DeviceAddress) (sp : SubPort) (h : P.phase = .constructing ∨ P.phase = .configured)
      (hd : P.deviceAddress = some d) (hs : P.subPort = some sp) (ha : ans = .fail) :
      CommandEffect c ans p .readPort P (P.respond .transport 0x00)
        (some ⟨p, .read, d, c.regs.addr .gpio sp, none, .fail⟩)
  | readOk (P : Port) (d : DeviceAddress) (sp : SubPort) (b : Byte) (h : P.phase = .constructing ∨ P.phase = .configured)
      (hd : P.deviceAddress = some d) (hs : P.subPort = some sp) (ha : ans = .ok b) :
      CommandEffect c ans p .readPort P ({ P with currentByte := some b }.respond .ok b)
        (some ⟨p, .read, d, c.regs.addr .gpio sp, some b, .ok⟩)
  | writeFailed (v : Byte) (P : Port) (d : DeviceAddress) (sp : SubPort)
      (h : P.phase = .constructing ∨ P.phase = .configured) (hd : P.deviceAddress = some d) (hs : P.subPort = some sp)
      (ha : busOutcome ans = .fail) :
      CommandEffect c ans p (.writePort v) P (P.respond .transport 0x00)
        (some ⟨p, .write, d, c.regs.addr .gpio sp, some v, .fail⟩)
  | writeOk (v : Byte) (P : Port) (d : DeviceAddress) (sp : SubPort)
      (h : P.phase = .constructing ∨ P.phase = .configured) (hd : P.deviceAddress = some d) (hs : P.subPort = some sp)
      (ha : busOutcome ans = .ok) :
      CommandEffect c ans p (.writePort v) P ({ P with currentByte := some v }.respond .ok 0x00)
        (some ⟨p, .write, d, c.regs.addr .gpio sp, some v, .ok⟩)
  | pinOutOfRange (pin : BitVec 4) (a : Bool) (P : Port) (h : P.phase = .constructing ∨ P.phase = .configured)
      (hp : pinIndex pin = none) :
      CommandEffect c ans p (.toggleRelay pin a) P (P.respond .pinOutOfRange 0x00) none
  | unsupportedOnSensor (pin : BitVec 4) (a : Bool) (P : Port) (n : Fin 8)
      (h : P.phase = .constructing ∨ P.phase = .configured) (hp : pinIndex pin = some n)
      (hr : P.role = some .sensorInput) :
      CommandEffect c ans p (.toggleRelay pin a) P (P.respond .unsupportedOnSensor 0x00) none
  | toggleFailed (pin : BitVec 4) (a : Bool) (P : Port) (n : Fin 8) (b : Byte) (d : DeviceAddress) (sp : SubPort)
      (h : P.phase = .constructing ∨ P.phase = .configured) (hp : pinIndex pin = some n)
      (hr : P.role = some .relayOutput) (hb : P.currentByte = some b) (hd : P.deviceAddress = some d)
      (hs : P.subPort = some sp) (ha : busOutcome ans = .fail) :
      CommandEffect c ans p (.toggleRelay pin a) P (P.respond .transport 0x00)
        (some ⟨p, .write, d, c.regs.addr .gpio sp, some (setBit b n (relayBit a)), .fail⟩)
  | toggleOk (pin : BitVec 4) (a : Bool) (P : Port) (n : Fin 8) (b : Byte) (d : DeviceAddress) (sp : SubPort)
      (h : P.phase = .constructing ∨ P.phase = .configured) (hp : pinIndex pin = some n)
      (hr : P.role = some .relayOutput) (hb : P.currentByte = some b) (hd : P.deviceAddress = some d)
      (hs : P.subPort = some sp) (ha : busOutcome ans = .ok) :
      CommandEffect c ans p (.toggleRelay pin a) P
        ({ P with currentByte := some (setBit b n (relayBit a)) }.respond .ok 0x00)
        (some ⟨p, .write, d, c.regs.addr .gpio sp, some (setBit b n (relayBit a)), .ok⟩)
  | invalidInterval (P : Port) (h : P.phase = .constructing ∨ P.phase = .configured) :
      CommandEffect c ans p (.pollStart 0) P (P.respond .invalidInterval 0x00) none
  | alreadyPolling (ms : Interval) (P : Port) (h : P.phase = .constructing ∨ P.phase = .configured) (hm : ms ≠ 0)
      (hp : P.polling = true) :
      CommandEffect c ans p (.pollStart ms) P (P.respond .alreadyPolling 0x00) none
  | pollStarted (ms : Interval) (P : Port) (h : P.phase = .constructing ∨ P.phase = .configured) (hm : ms ≠ 0)
      (hp : P.polling = false) :
      CommandEffect c ans p (.pollStart ms) P ({ P with interval := some ms, polling := true }.respond .ok 0x00) none
  | pollStopped (P : Port) (h : P.phase = .constructing ∨ P.phase = .configured) :
      CommandEffect c ans p .pollStop P ({ P with polling := false }.respond .ok 0x00) none
  | overflow (id : Byte) (P : Port) (h : P.phase = .constructing ∨ P.phase = .configured)
      (hc : c.maxSubscribers = some P.subscribers.length) :
      CommandEffect c ans p (.subscribe id) P (P.respond .subscriberOverflow 0x00) none
  | subscribed (id : Byte) (P : Port) (h : P.phase = .constructing ∨ P.phase = .configured)
      (hc : c.maxSubscribers ≠ some P.subscribers.length) :
      CommandEffect c ans p (.subscribe id) P ({ P with subscribers := P.subscribers ++ [id] }.respond .ok 0x00) none

/-- A command answers a next state exactly by one of its effects. -/
theorem exec_effect {i : Instr} {s t : State} (hx : exec i s = .next t) :
    ∃ P P' r, s.port? s.active = some P ∧ CommandEffect s.cfg s.nextAnswer s.active i P P' r ∧
      t = s.withEffect s.active P' r := by
  cases i with
  | construct d sp r =>
    obtain ⟨P, hP, ⟨h, rfl⟩ | ⟨h, rfl⟩ | ⟨h, hl, rfl⟩ | ⟨h, hl, hr, rfl⟩⟩ := execConstruct_next.mp hx
    · exact ⟨P, _, none, hP, .portFailed _ P h, rfl⟩
    · exact ⟨P, _, none, hP, .alreadyConfigured d sp r P h, rfl⟩
    · exact ⟨P, _, none, hP, .accepted d sp r P h hl, rfl⟩
    · exact ⟨P, _, none, hP, .emptyProgram d sp r P h hl hr, rfl⟩
  | readPort =>
    obtain ⟨P, hP, ⟨h, rfl⟩ | ⟨h, rfl⟩ | ⟨h, d, sp, hd, hs, ⟨ha, rfl⟩ | ⟨b, ha, rfl⟩⟩⟩ := execReadPort_next.mp hx
    · exact ⟨P, _, none, hP, .portFailed _ P h, rfl⟩
    · exact ⟨P, _, none, hP, .notConfigured _ P h (by simp), rfl⟩
    · exact ⟨P, _, some _, hP, .readFailed P d sp h hd hs ha, rfl⟩
    · exact ⟨P, _, some _, hP, .readOk P d sp b h hd hs ha, rfl⟩
  | writePort v =>
    obtain ⟨P, hP, ⟨h, rfl⟩ | ⟨h, rfl⟩ | ⟨h, hw⟩⟩ := execWritePort_next.mp hx
    · exact ⟨P, _, none, hP, .portFailed _ P h, rfl⟩
    · exact ⟨P, _, none, hP, .notConfigured _ P h (by simp), rfl⟩
    · obtain ⟨d, sp, hd, hs, ⟨ha, rfl⟩ | ⟨ha, rfl⟩⟩ := State.writeGpio_next.mp hw
      · exact ⟨P, _, some _, hP, .writeFailed v P d sp h hd hs ha, rfl⟩
      · exact ⟨P, _, some _, hP, .writeOk v P d sp h hd hs ha, rfl⟩
  | toggleRelay pin a =>
    obtain ⟨P, hP, ⟨h, rfl⟩ | ⟨h, rfl⟩ | ⟨h, ⟨hp, rfl⟩ | ⟨n, hp, ⟨hr, rfl⟩ | ⟨hr, b, hb, hw⟩⟩⟩⟩ :=
      execToggleRelay_next.mp hx
    · exact ⟨P, _, none, hP, .portFailed _ P h, rfl⟩
    · exact ⟨P, _, none, hP, .notConfigured _ P h (by simp), rfl⟩
    · exact ⟨P, _, none, hP, .pinOutOfRange pin a P h hp, rfl⟩
    · exact ⟨P, _, none, hP, .unsupportedOnSensor pin a P n h hp hr, rfl⟩
    · obtain ⟨d, sp, hd, hs, ⟨ha, rfl⟩ | ⟨ha, rfl⟩⟩ := State.writeGpio_next.mp hw
      · exact ⟨P, _, some _, hP, .toggleFailed pin a P n b d sp h hp hr hb hd hs ha, rfl⟩
      · exact ⟨P, _, some _, hP, .toggleOk pin a P n b d sp h hp hr hb hd hs ha, rfl⟩
  | pollStart ms =>
    obtain ⟨P, hP, ⟨h, rfl⟩ | ⟨h, rfl⟩ | ⟨h, ⟨rfl, rfl⟩ | ⟨hm, hp, rfl⟩ | ⟨hm, hp, rfl⟩⟩⟩ := execPollStart_next.mp hx
    · exact ⟨P, _, none, hP, .portFailed _ P h, rfl⟩
    · exact ⟨P, _, none, hP, .notConfigured _ P h (by simp), rfl⟩
    · exact ⟨P, _, none, hP, .invalidInterval P h, rfl⟩
    · exact ⟨P, _, none, hP, .alreadyPolling ms P h hm hp, rfl⟩
    · exact ⟨P, _, none, hP, .pollStarted ms P h hm hp, rfl⟩
  | pollStop =>
    obtain ⟨P, hP, ⟨h, rfl⟩ | ⟨h, rfl⟩ | ⟨h, rfl⟩⟩ := execPollStop_next.mp hx
    · exact ⟨P, _, none, hP, .portFailed _ P h, rfl⟩
    · exact ⟨P, _, none, hP, .notConfigured _ P h (by simp), rfl⟩
    · exact ⟨P, _, none, hP, .pollStopped P h, rfl⟩
  | subscribe id =>
    obtain ⟨P, hP, ⟨h, rfl⟩ | ⟨h, rfl⟩ | ⟨h, ⟨hc, rfl⟩ | ⟨hc, rfl⟩⟩⟩ := execSubscribe_next.mp hx
    · exact ⟨P, _, none, hP, .portFailed _ P h, rfl⟩
    · exact ⟨P, _, none, hP, .notConfigured _ P h (by simp), rfl⟩
    · exact ⟨P, _, none, hP, .overflow id P h hc, rfl⟩
    · exact ⟨P, _, none, hP, .subscribed id P h hc, rfl⟩

/-- The events a step logs: the change event and the error event, if any. -/
structure Events where
  change : Option ChangeEvent := none
  error  : Option ErrorEvent := none
  deriving DecidableEq, Repr

/-- `StepEffect c ans offer a P P' r e`: under the parameters `c`, with `offer` the word offered to the instance and `ans`
the oracle's next answer, the ready move `a` takes its instance from the fields `P` to `P'`, issues the transaction `r`
and logs the events `e`. -/
inductive StepEffect (c : Config) (ans : Answer) (offer : Option Word) :
    Move → Port → Port → Option BusRecord → Events → Prop where
  | illegal (p : Nat) (P : Port) (w : Word) (why : IllegalReason) (ho : offer = some w) (hd : decode w = .illegal why) :
      StepEffect c ans offer (.command p) P ({ P with cmd := some w }.respond .illegalCommand 0x00) none {}
  | command (p : Nat) (P P' : Port) (w : Word) (i : Instr) (r : Option BusRecord) (ho : offer = some w)
      (hd : decode w = .command i) (h : CommandEffect c ans p i { P with cmd := some w } P' r) :
      StepEffect c ans offer (.command p) P P' r {}
  | constructFailed (p : Nat) (P : Port) (w : Word) (k : Nat) (f : Family) (v : Byte) (d : DeviceAddress) (sp : SubPort)
      (hph : P.phase = .constructing) (hw : P.cmd = some w) (hk : P.seq = some k)
      (hg : (prog c (roleField w))[k]? = some (f, v)) (hd : P.deviceAddress = some d) (hs : P.subPort = some sp)
      (ha : busOutcome ans = .fail) :
      StepEffect c ans offer (.construct p) P ({ P with phase := .failed, seq := none }.respond .transport 0x00)
        (some ⟨p, .write, d, c.regs.addr f sp, some v, .fail⟩) {}
  | constructGoesOn (p : Nat) (P : Port) (w : Word) (k : Nat) (f : Family) (v : Byte) (d : DeviceAddress) (sp : SubPort)
      (hph : P.phase = .constructing) (hw : P.cmd = some w) (hk : P.seq = some k)
      (hg : (prog c (roleField w))[k]? = some (f, v)) (hd : P.deviceAddress = some d) (hs : P.subPort = some sp)
      (ha : busOutcome ans = .ok) (hl : k + 1 ≠ (prog c (roleField w)).length) :
      StepEffect c ans offer (.construct p) P (P.afterConstructionWrite (roleField w) k f v)
        (some ⟨p, .write, d, c.regs.addr f sp, some v, .ok⟩) {}
  | constructed (p : Nat) (P : Port) (w : Word) (k : Nat) (f : Family) (v : Byte) (d : DeviceAddress) (sp : SubPort)
      (hph : P.phase = .constructing) (hw : P.cmd = some w) (hk : P.seq = some k)
      (hg : (prog c (roleField w))[k]? = some (f, v)) (hd : P.deviceAddress = some d) (hs : P.subPort = some sp)
      (ha : busOutcome ans = .ok) (hl : k + 1 = (prog c (roleField w)).length) (hr : roleOf (roleField w) ≠ none) :
      StepEffect c ans offer (.construct p) P
        ({ P.afterConstructionWrite (roleField w) k f v with phase := .configured, seq := none }.respond .ok 0x00)
        (some ⟨p, .write, d, c.regs.addr f sp, some v, .ok⟩) {}
  | unrecognised (p : Nat) (P : Port) (w : Word) (k : Nat) (f : Family) (v : Byte) (d : DeviceAddress) (sp : SubPort)
      (hph : P.phase = .constructing) (hw : P.cmd = some w) (hk : P.seq = some k)
      (hg : (prog c (roleField w))[k]? = some (f, v)) (hd : P.deviceAddress = some d) (hs : P.subPort = some sp)
      (ha : busOutcome ans = .ok) (hl : k + 1 = (prog c (roleField w)).length) (hr : roleOf (roleField w) = none) :
      StepEffect c ans offer (.construct p) P
        ({ P.afterConstructionWrite (roleField w) k f v with phase := .failed, seq := none }.respond .invalidRole 0x00)
        (some ⟨p, .write, d, c.regs.addr f sp, some v, .ok⟩) {}
  | tickFailed (p : Nat) (P : Port) (old : Byte) (d : DeviceAddress) (sp : SubPort) (ht : P.tickEnabled = true)
      (ho : P.currentByte = some old) (hd : P.deviceAddress = some d) (hs : P.subPort = some sp) (ha : ans = .fail) :
      StepEffect c ans offer (.tick p) P P (some ⟨p, .read, d, c.regs.addr .gpio sp, none, .fail⟩)
        { error := some ⟨p, .transport⟩ }
  | tickSame (p : Nat) (P : Port) (b : Byte) (d : DeviceAddress) (sp : SubPort) (ht : P.tickEnabled = true)
      (ho : P.currentByte = some b) (hd : P.deviceAddress = some d) (hs : P.subPort = some sp) (ha : ans = .ok b) :
      StepEffect c ans offer (.tick p) P P (some ⟨p, .read, d, c.regs.addr .gpio sp, some b, .ok⟩) {}
  | tickChanged (p : Nat) (P : Port) (old b : Byte) (d : DeviceAddress) (sp : SubPort) (ht : P.tickEnabled = true)
      (ho : P.currentByte = some old) (hd : P.deviceAddress = some d) (hs : P.subPort = some sp) (ha : ans = .ok b)
      (hb : b ≠ old) :
      StepEffect c ans offer (.tick p) P { P with currentByte := some b }
        (some ⟨p, .read, d, c.regs.addr .gpio sp, some b, .ok⟩)
        { change := some ⟨p, b ^^^ old, emittedLevels c.emitInvert b (diffBytes b old), P.subscribers⟩ }

/-- The fields a ready move's next state has, but for the host's words and `active`. The oracle's future loses exactly the
answer to the transaction, if there was one. -/
structure State.After (s t : State) (p : Nat) (P' : Port) (r : Option BusRecord) (e : Events) : Prop where
  cfg : t.cfg = s.cfg
  transportReady : t.transportReady = s.transportReady
  answers : t.answers = if r.isSome then s.dropAnswer.answers else s.answers
  draws : t.draws = if r.isSome then s.dropAnswer.draws else s.draws
  ports : t.ports = s.ports.set p P'
  busTrace : t.busTrace = s.busTrace ++ r.toList
  changeLog : t.changeLog = s.changeLog ++ e.change.toList
  errorLog : t.errorLog = s.errorLog ++ e.error.toList
  plan : t.plan = s.plan

/-- `P` put where it stands changes nothing. -/
theorem State.ports_set_self {s : State} {p : Nat} {P : Port} (h : s.port? p = some P) : s.ports.set p P = s.ports := by
  obtain ⟨hl, rfl⟩ := List.getElem?_eq_some_iff.mp h
  exact List.set_getElem_self hl

/-- The instance a move went for has the fields its effect gives it. -/
theorem State.After.port?_self {s t : State} {p : Nat} {P P' : Port} {r : Option BusRecord} {e : Events}
    (h : s.After t p P' r e) (hP : s.port? p = some P) : t.port? p = some P' := by
  have hl : p < s.ports.length := (List.getElem?_eq_some_iff.mp hP).1
  simp [State.port?, h.ports, hl]

/-- Every other instance is as it was. -/
theorem State.After.port?_of_ne {s t : State} {p q : Nat} {P' : Port} {r : Option BusRecord} {e : Events}
    (h : s.After t p P' r e) (hq : q ≠ p) : t.port? q = s.port? q := by
  simp [State.port?, h.ports, List.getElem?_set_ne (Ne.symm hq)]

/-- The state after an effect. -/
theorem State.withEffect_after (s : State) (p : Nat) (P' : Port) (r : Option BusRecord) :
    s.After (s.withEffect p P' r) p P' r {} := by
  cases r <;> constructor <;> simp [State.withEffect]

/-- A move answers a next state only by one of its effects, or, when it is not ready, by leaving the state as it was. -/
theorem perform_effect {a : Move} {s t : State} (hx : perform a s = .next t) :
    (s.ready a = false ∧ t = s) ∨ ∃ P P' r e, s.port? a.port = some P ∧
      StepEffect s.cfg s.nextAnswer (s.offered a.port) a P P' r e ∧ s.After t a.port P' r e := by
  cases a with
  | command p =>
    obtain ⟨P, hP, ⟨ho, rfl⟩ | ⟨w, hw, ⟨why, hd, rfl⟩ | ⟨i, hd, he⟩⟩⟩ := commandStep_next.mp hx
    · exact .inl ⟨by simp [State.ready, hP, ho], rfl⟩
    · exact .inr ⟨P, _, none, {}, hP, .illegal p P w why hw hd, by constructor <;> simp [Move.port, List.set_set]⟩
    · obtain ⟨Q, P', r, hQ, hc, rfl⟩ := exec_effect he
      obtain rfl : _ = Q := Option.some.inj ((State.port?_accept hP w).symm.trans hQ)
      refine .inr ⟨P, P', r, {}, hP, .command p P P' w i r hw hd (by simpa using hc), ?_⟩
      have := (s.accept p P w).withEffect_after p P' r
      exact ⟨this.cfg, this.transportReady, by simpa using this.answers, by simpa using this.draws,
        by rw [State.accept_active, this.ports]; simp [Move.port, List.set_set], this.busTrace, this.changeLog, this.errorLog, this.plan⟩
  | construct p =>
    obtain ⟨P, hP, ⟨hn, rfl⟩ | ⟨he, w, k, hw, hk, f, v, d, sp, hg, hd, hs, h⟩⟩ := constructionStep_next.mp hx
    · exact .inl ⟨by simp [State.ready, hP, hn], rfl⟩
    · have hph : P.phase = .constructing := by
        simp only [Port.sequencerEnabled, Bool.and_eq_true, beq_iff_eq] at he
        exact he.1
      refine .inr ?_
      obtain ⟨ha, rfl⟩ | ⟨ha, hl, rfl⟩ | ⟨ha, hl, h⟩ := h
      · exact ⟨P, _, some _, {}, hP, .constructFailed p P w k f v d sp hph hw hk hg hd hs ha,
          by constructor <;> simp [Move.port]⟩
      · exact ⟨P, _, some _, {}, hP, .constructGoesOn p P w k f v d sp hph hw hk hg hd hs ha hl,
          by constructor <;> simp [Move.port]⟩
      · obtain ⟨hr, rfl⟩ | ⟨hr, rfl⟩ := State.finishConstruction_next.mp h
        · exact ⟨P, _, some _, {}, hP, .constructed p P w k f v d sp hph hw hk hg hd hs ha hl hr,
            by constructor <;> simp [Move.port]⟩
        · exact ⟨P, _, some _, {}, hP, .unrecognised p P w k f v d sp hph hw hk hg hd hs ha hl hr,
            by constructor <;> simp [Move.port]⟩
  | tick p =>
    obtain ⟨P, hP, ⟨hn, rfl⟩ | ⟨ht, old, d, sp, ho, hd, hs, ⟨ha, rfl⟩ | ⟨b, ha, ⟨rfl, rfl⟩ | ⟨hb, rfl⟩⟩⟩⟩ := tick_next.mp hx
    · exact .inl ⟨by simp [State.ready, hP, hn], rfl⟩
    · refine .inr ⟨P, P, some _, _, hP, .tickFailed p P old d sp ht ho hd hs ha, ?_⟩
      constructor <;> simp [Move.port, State.ports_set_self hP]
    · refine .inr ⟨P, P, some _, _, hP, .tickSame p P b d sp ht ho hd hs ha, ?_⟩
      constructor <;> simp [Move.port, ← ho]
    · refine .inr ⟨P, _, some _, _, hP, .tickChanged p P old b d sp ht ho hd hs ha hb, ?_⟩
      constructor <;> simp [Move.port]

/-- A ready move answers a next state only by one of its effects. -/
theorem perform_effect_of_ready {a : Move} {s t : State} (hr : s.ready a = true) (h : perform a s = .next t) :
    ∃ P P' r e, s.port? a.port = some P ∧
      StepEffect s.cfg s.nextAnswer (s.offered a.port) a P P' r e ∧ s.After t a.port P' r e :=
  (perform_effect h).resolve_left fun h => absurd hr (by simp [h.1])

/-- What a move does to any instance: nothing, or its effect on the instance it belongs to. -/
theorem perform_port {a : Move} {s t : State} {p : Nat} {P P' : Port} (h : perform a s = .next t)
    (hP : s.port? p = some P) (hP' : t.port? p = some P') :
    P' = P ∨ a.port = p ∧ ∃ r e, StepEffect s.cfg s.nextAnswer (s.offered p) a P P' r e ∧ s.After t p P' r e := by
  obtain ⟨-, rfl⟩ | ⟨Q, Q', r, e, hQ, he, ha⟩ := perform_effect h
  · exact .inl (Option.some.inj (hP'.symm.trans hP))
  · by_cases hp : p = a.port
    · subst hp
      obtain rfl := Option.some.inj (hP.symm.trans hQ)
      obtain rfl := Option.some.inj (hP'.symm.trans (ha.port?_self hP))
      exact .inr ⟨rfl, r, e, he, ha⟩
    · exact .inl (Option.some.inj (hP'.symm.trans ((ha.port?_of_ne hp).trans hP)))

/-- What a step does to any instance: nothing, or the effect of the ready move the arbiter chose. -/
theorem step_port {s t : State} {p : Nat} {P P' : Port} (h : step s = .next t) (hP : s.port? p = some P)
    (hP' : t.port? p = some P') :
    P' = P ∨ ∃ (a : Move) (s' : State), a.port = p ∧ s.ready a = true ∧ s.chosen = some a ∧ s'.cfg = s.cfg ∧
      ∃ r e, StepEffect s.cfg s'.nextAnswer (s.offered p) a P P' r e ∧ s'.After t p P' r e := by
  rcases step_cases s with ⟨a, d, hc, hr, he⟩ | ⟨-, he⟩
  · rw [he] at h
    obtain rfl | ⟨hp, r, e, hx, ha⟩ := perform_port (s := { s with plan := s.plan.tail, draws := d }) h hP hP'
    · exact .inl rfl
    · exact .inr ⟨a, { s with plan := s.plan.tail, draws := d }, hp, hr, by simp [State.chosen, hc], rfl, r, e, hx, ha⟩
  · rw [he] at h
    cases h
    exact .inl (Option.some.inj (hP'.symm.trans hP))

end Sys2Proof.Machine
end

