-- ==== Sys2Proof/Laws/Construction.lean ====
section
/-! SUPPORT. Construction step by step (R114): the role code of a CONSTRUCT word, what a planned construction step with a
scripted answer is, and a run of several steps. -/

namespace Sys2Proof.Machine

/-- The role field of a CONSTRUCT word is its role operand (R83). -/
theorem roleField_encode_construct (dev : DeviceAddress) (sp : SubPort) (code : RoleCode) :
    roleField (encode (.construct dev sp code)) = code := by
  refine BitVec.eq_of_getLsbD_eq fun i hi => ?_
  interval_cases i <;> simp [encode, place, roleField]

/-- The role field of any word that decodes to CONSTRUCT is the role operand. -/
theorem roleField_of_decode {w : Word} {dev : DeviceAddress} {sp : SubPort} {code : RoleCode}
    (h : decode w = .command (.construct dev sp code)) : roleField w = code := by
  unfold decode at h
  simp only at h
  repeat' split at h
  all_goals first
    | (obtain ⟨-, h⟩ := whenReservedZero_eq_command.mp h; cases h; done)
    | (obtain ⟨-, h⟩ := whenReservedZero_eq_command.mp h; cases h; rfl)
    | cases h

/-- The sequencer of a CONSTRUCTING instance with a row of its program to do is enabled. -/
theorem Port.sequencerEnabled_of_row {c : Config} {P : Port} {w : Word} {k : Nat} {f : Family} {v : Byte}
    (hph : P.phase = .constructing) (hw : P.cmd = some w) (hk : P.seq = some k)
    (hg : (prog c (roleField w))[k]? = some (f, v)) : P.sequencerEnabled c = true := by
  simp [Port.sequencerEnabled, hph, hk, hw]
  exact (List.getElem?_eq_some_iff.mp hg).1

/-- One step of a run of several. -/
theorem run_succ_of_next {n : Nat} {s t : State} (h : step s = .next t) :
    Host.Core.run Sys2Proof.core (n + 1) s = Host.Core.run Sys2Proof.core n t := by
  have h' : Sys2Proof.core.step s = .next t := h
  simp only [Host.Core.run, h']

/-- A planned construction step whose write succeeds and is not the last one. -/
theorem step_construct_goesOn {s : State} {p : Nat} {P : Port} {w : Word} {k : Nat} {f : Family} {v b : Byte}
    {dev : DeviceAddress} {sp : SubPort} {rest : List Move} {answers : List Answer} (hP : s.port? p = some P)
    (hT : s.transportReady = true)
    (hph : P.phase = .constructing) (hw : P.cmd = some w) (hk : P.seq = some k) (hpl : s.plan = .construct p :: rest)
    (hd : P.deviceAddress = some dev) (hs : P.subPort = some sp) (ha : s.answers = .ok b :: answers)
    (hg : (prog s.cfg (roleField w))[k]? = some (f, v)) (hl : k + 1 ≠ (prog s.cfg (roleField w)).length) :
    step s = .next { s with
      plan := rest, answers := answers,
      busTrace := s.busTrace ++ [⟨p, .write, dev, s.cfg.regs.addr f sp, some v, .ok⟩],
      ports := s.ports.set p (P.afterConstructionWrite (roleField w) k f v) } := by
  have hen := Port.sequencerEnabled_of_row hph hw hk hg
  rw [step_plan hpl (State.ready_construct.mpr ⟨P, hP, hen⟩)]
  refine constructionStep_next.mpr ⟨P, hP, .inr ⟨hen, w, k, hw, hk, f, v, dev, sp, hg, hd, hs, .inr (.inl ⟨?_, hl, ?_⟩)⟩⟩
  · exact congrArg busOutcome (State.nextAnswer_of_script (s := { s with plan := rest }) hT ha)
  · simp [State.record, State.setPort, State.dropAnswer, ha]

/-- A planned construction step whose write succeeds and is the last one of a recognised role. -/
theorem step_construct_done {s : State} {p : Nat} {P : Port} {w : Word} {k : Nat} {f : Family} {v b : Byte}
    {dev : DeviceAddress} {sp : SubPort} {rest : List Move} {answers : List Answer} (hP : s.port? p = some P)
    (hT : s.transportReady = true)
    (hph : P.phase = .constructing) (hw : P.cmd = some w) (hk : P.seq = some k) (hpl : s.plan = .construct p :: rest)
    (hd : P.deviceAddress = some dev) (hs : P.subPort = some sp) (ha : s.answers = .ok b :: answers)
    (hg : (prog s.cfg (roleField w))[k]? = some (f, v)) (hl : k + 1 = (prog s.cfg (roleField w)).length)
    (hr : roleOf (roleField w) ≠ none) :
    step s = .next { s with
      plan := rest, answers := answers,
      busTrace := s.busTrace ++ [⟨p, .write, dev, s.cfg.regs.addr f sp, some v, .ok⟩],
      ports := s.ports.set p { P.afterConstructionWrite (roleField w) k f v with
        phase := .configured, seq := none, cmd := none, response := some 0x0000#16 } } := by
  have hen := Port.sequencerEnabled_of_row hph hw hk hg
  rw [step_plan hpl (State.ready_construct.mpr ⟨P, hP, hen⟩)]
  refine constructionStep_next.mpr ⟨P, hP, .inr ⟨hen, w, k, hw, hk, f, v, dev, sp, hg, hd, hs, .inr (.inr ⟨?_, hl, ?_⟩)⟩⟩
  · exact congrArg busOutcome (State.nextAnswer_of_script (s := { s with plan := rest }) hT ha)
  · refine State.finishConstruction_next.mpr (.inl ⟨hr, ?_⟩)
    simp [State.record, State.setPort, State.dropAnswer, ha, Port.respond, violationAfter, Status.setsViolation,
      responseWord, Status.code]

end Sys2Proof.Machine
end

