-- ==== Sys2Proof/Laws/PerInstr.lean ====
section
/-! SUPPORT. Statements made for every command, one lemma per constructor of `Instr` (LAWS.json). -/

namespace Sys2Proof.Laws

/-- The command's word is one of its own row's words in the opcode table (R99). -/
def RowCoversEncoding.Statement (i : Instr) : Prop :=
  ∃ r ∈ opcodeTable, r.mnemonic = i.mnemonic ∧ r.covers (encode i) = true

/-- The shape all seven lemmas share: the row stands in the table and the encoded word agrees with it bit by bit. -/
theorem rowCovers_of_bits {i : Instr} (r : OpcodeRow) (hr : r ∈ opcodeTable) (hm : r.mnemonic = i.mnemonic)
    (hb : ∀ j, j < 32 → (encode i &&& r.mask).getLsbD j = r.pattern.getLsbD j) : RowCoversEncoding.Statement i :=
  ⟨r, hr, hm, by simpa [OpcodeRow.covers] using word_ext hb⟩

theorem RowCoversEncoding.construct (dev : DeviceAddress) (sp : SubPort) (role : RoleCode) :
    RowCoversEncoding.Statement (.construct dev sp role) := by
  refine rowCovers_of_bits ⟨"CONSTRUCT", 0x10000000#32, 0xFFFFFC00#32⟩ (by decide) rfl fun j hj => ?_
  interval_cases j <;> simp [encode, place]

theorem RowCoversEncoding.readPort : RowCoversEncoding.Statement .readPort := by
  refine rowCovers_of_bits ⟨"READ_PORT", 0x20000000#32, 0xFFFFFFFF#32⟩ (by decide) rfl fun j hj => ?_
  interval_cases j <;> simp [encode, place]

theorem RowCoversEncoding.writePort (value : Byte) : RowCoversEncoding.Statement (.writePort value) := by
  refine rowCovers_of_bits ⟨"WRITE_PORT", 0x30000000#32, 0xFFFFFF00#32⟩ (by decide) rfl fun j hj => ?_
  interval_cases j <;> simp [encode, place]

theorem RowCoversEncoding.toggleRelay (pin : BitVec 4) (asserted : Bool) :
    RowCoversEncoding.Statement (.toggleRelay pin asserted) := by
  refine rowCovers_of_bits ⟨"TOGGLE_RELAY", 0x40000000#32, 0xFFFFFFE0#32⟩ (by decide) rfl fun j hj => ?_
  interval_cases j <;> simp [encode, place]

theorem RowCoversEncoding.pollStart (ms : Interval) : RowCoversEncoding.Statement (.pollStart ms) := by
  refine rowCovers_of_bits ⟨"POLL_START", 0x50000000#32, 0xFFFF0000#32⟩ (by decide) rfl fun j hj => ?_
  interval_cases j <;> simp [encode, place]

theorem RowCoversEncoding.pollStop : RowCoversEncoding.Statement .pollStop := by
  refine rowCovers_of_bits ⟨"POLL_STOP", 0x60000000#32, 0xFFFFFFFF#32⟩ (by decide) rfl fun j hj => ?_
  interval_cases j <;> simp [encode, place]

theorem RowCoversEncoding.subscribe (id : Byte) : RowCoversEncoding.Statement (.subscribe id) := by
  refine rowCovers_of_bits ⟨"SUBSCRIBE", 0x70000000#32, 0xFFFFFF00#32⟩ (by decide) rfl fun j hj => ?_
  interval_cases j <;> simp [encode, place]

end Sys2Proof.Laws
end

