-- ==== Sys2Proof/Machine/Boot.lean ====
section
/-! DEFINITION. The order a host follows for each instance (R195): what the external orchestrator gives the command
channel. The block itself has no boot program (R192). -/

namespace Sys2Proof.Machine

/-- Step (1) of R195: CONSTRUCT with the instance's configuration triple. -/
def bootConstruct (e : PortCfg) : Instr := .construct e.deviceAddress e.subPort e.role

/-- Steps (2) and (3) of R195, which follow an OK response only: SUBSCRIBE every subscriber, then POLL_START for a sensor
port. -/
def bootAfter (r : ResponseWord) (e : PortCfg) (subscribers : List Byte) (ms : Interval) : List Instr :=
  if responseStatus r = Status.ok.code then
    subscribers.map .subscribe ++ (if e.role = 0b00 then [.pollStart ms] else [])
  else []

/-- The first words the host gives: each instance's CONSTRUCT, in the configuration list's order (R194, R195). -/
def bootOffers (c : Config) : List Offer :=
  c.portCfg.zipIdx.map fun x => ⟨x.2, encode (bootConstruct x.1)⟩

end Sys2Proof.Machine
end

