-- ==== Sys2Proof/Tests/Slice0.lean ====
section
/-! SUPPORT. Tests of the model against the spec's own vectors (95_test_vectors.md; the comment of each test names its
row), and for every statement with hypotheses a concrete state and operands that meet them. -/

namespace Sys2Proof.Machine.Tests

/-! ### Small states -/

/-- The relay port of the vectors: constructed as (0x20, A, RELAY). -/
def relayPort : Port :=
  { Port.reset with
    deviceAddress := some 0x20, subPort := some .a, role := some .relayOutput, currentByte := some 0xFF,
    directionByte := some 0x00, phase := .configured, response := some 0x0000 }

/-- The sensor port of the vectors: constructed as (0x21, B, SENSOR). -/
def sensorPort : Port :=
  { Port.reset with
    deviceAddress := some 0x21, subPort := some .b, role := some .sensorInput, currentByte := some 0xFF,
    directionByte := some 0xFF, pullupByte := some 0xFF, polarityByte := some 0x00, phase := .configured,
    response := some 0x0000 }

/-- The sensor port, polling every 50 ms with subscribers 1 and 2. -/
def pollingPort : Port := { sensorPort with polling := true, interval := some 50, subscribers := [1, 2] }

/-- The instance that T-CON-5 leaves. -/
def failedPort : Port :=
  { Port.reset with deviceAddress := some 0x27, subPort := some .b, phase := .failed, response := some 0x1000 }

/-- The relay instance before its last construction step. -/
def nearlyBuilt : Port :=
  { Port.reset with
    deviceAddress := some 0x20, subPort := some .a, role := some .relayOutput, directionByte := some 0x00,
    phase := .constructing, seq := some 2, cmd := some 0x10000120 }

/-- The instance executes the command `w`. -/
def during (P : Port) (w : Word) : Port := { P with cmd := some w }

/-- A system of two instances, `P` and a reset one, whose transactions are answered by `answers`. -/
def sys (P : Port) (answers : List Answer := []) : State :=
  { State.boot Config.standard with ports := [P, Port.reset], answers := answers }

/-- The same, and the arbiter takes the moves `plan`. -/
def sysPlan (P : Port) (answers : List Answer) (plan : List Move) : State := { sys P answers with plan := plan }

/-- The same, with a word offered to instance 0 and its command step next. -/
def sysOffer (P : Port) (w : Word) (answers : List Answer := []) (rest : List Move := []) : State :=
  { sys P answers with offers := [⟨0, w⟩], plan := .command 0 :: rest }

/-- The outcome is a next state with the property. -/
def holdsNext (r : Result) (check : State → Bool) : Bool :=
  match r with
  | .next t => check t
  | .fault _ => false
  | .refused _ => false

/-! ### Well-formedness: each check refuses -/

theorem test_construct_address_too_wide : (SourceCommand.construct 0x80 .a 0b00).fits = false := by decide
theorem test_write_value_too_wide : (SourceCommand.writePort 0x100).fits = false := by decide
theorem test_toggle_pin_too_wide : (SourceCommand.toggleRelay 16 true).fits = false := by decide
theorem test_poll_interval_too_wide : (SourceCommand.pollStart 0x10000).fits = false := by decide
theorem test_subscriber_id_too_wide : (SourceCommand.subscribe 0x100).fits = false := by decide
theorem test_too_wide_operand_has_no_word : (SourceCommand.toggleRelay 16 true).assemble = none := by decide
theorem test_role_2_ill_formed : (Instr.construct 0x27 .b 0b10).wellFormed = false := by decide
theorem test_role_3_ill_formed : (Instr.construct 0x20 .a 0b11).wellFormed = false := by decide
theorem test_pin_0_ill_formed : (Instr.toggleRelay 0 true).wellFormed = false := by decide
theorem test_pin_9_ill_formed : (Instr.toggleRelay 9 true).wellFormed = false := by decide
theorem test_interval_0_ill_formed : (Instr.pollStart 0).wellFormed = false := by decide
theorem test_boundary_operands_well_formed :
    (Instr.construct 0x7F .b 0b01).wellFormed ∧ (Instr.toggleRelay 1 false).wellFormed ∧
      (Instr.toggleRelay 8 true).wellFormed ∧ (Instr.pollStart 1).wellFormed := by decide

/-! ### Decoding: words written bit by bit from the format rules -/

/-- R83: opcode 0001, 18 zeros, role 01, sub-port 0, address 0100000 (T-DEC-1); and every field at its maximum (T-DEC-4). -/
theorem test_decode_construct :
    decode 0b0001_000000000000000000_01_0_0100000 = .command (.construct 0x20 .a 0b01) ∧
      decode 0b0001_000000000000000000_11_1_1111111 = .command (.construct 0x7F .b 0b11) := by decide

/-- R84 (T-DEC-8, T-DEC-9). -/
theorem test_decode_readPort :
    decode 0b0010_0000000000000000000000000000 = .command .readPort ∧
      decode 0b0010_0000000000000000000000000001 = .illegal .reservedBits := by decide

/-- R85 (T-DEC-10, T-DEC-11). -/
theorem test_decode_writePort :
    decode 0b0011_00000000000000000000_10101010 = .command (.writePort 0xAA) ∧
      decode 0b0011_00000000000000000001_10101010 = .illegal .reservedBits := by decide

/-- R86: the assert bit is bit 4 (T-DEC-12, T-DEC-13, T-DEC-15, T-DEC-16). -/
theorem test_decode_toggleRelay :
    decode 0b0100_00000000000000000000000_1_0011 = .command (.toggleRelay 3 true) ∧
      decode 0b0100_00000000000000000000000_0_0011 = .command (.toggleRelay 3 false) ∧
      decode 0b0100_00000000000000000000000_1_1111 = .command (.toggleRelay 15 true) ∧
      decode 0b0100_00000000000000000000001_0_0000 = .illegal .reservedBits := by decide

/-- R87 (T-DEC-17, T-DEC-18, T-DEC-20). -/
theorem test_decode_pollStart :
    decode 0b0101_000000000000_0000000000110010 = .command (.pollStart 50) ∧
      decode 0b0101_000000000000_1111111111111111 = .command (.pollStart 65535) ∧
      decode 0b0101_000000000001_0000000000000000 = .illegal .reservedBits := by decide

/-- R88 (T-DEC-21, T-DEC-22). -/
theorem test_decode_pollStop :
    decode 0b0110_0000000000000000000000000000 = .command .pollStop ∧
      decode 0b0110_0000000000000000000000000001 = .illegal .reservedBits := by decide

/-- R89 (T-DEC-24, T-DEC-25). -/
theorem test_decode_subscribe :
    decode 0b0111_00000000000000000000_11111111 = .command (.subscribe 255) ∧
      decode 0b0111_00000000000000000001_00000000 = .illegal .reservedBits := by decide

/-- R91 (T-DEC-26 to T-DEC-28, T-DEC-7). -/
theorem test_decode_illegal :
    decode 0x00000000 = .illegal .reservedOpcode ∧ decode 0x80000000 = .illegal .reservedOpcode ∧
      decode 0xF0000000 = .illegal .reservedOpcode ∧ decode 0x1FFFFFFF = .illegal .reservedBits := by decide

/-- The table's word of a row decodes to the row's command; a reserved opcode is refused. -/
theorem test_decodeTableWord :
    decodeTableWord 32 0x40000013 = some (.toggleRelay 3 true) ∧ decodeTableWord 32 0x80000000 = none := by decide

/-- A word given with `withFetchWord` is the first to run after reset, even on the instance that holds nothing yet:
READ_PORT answers NOT_CONFIGURED (T-RD-4). -/
theorem test_withFetchWord_runs_first :
    holdsNext (step (State.reset.withFetchWord 32 0x20000000)) (fun t =>
      t.ports[0]? == some { Port.reset with response := some 0x3000, violation := true }) = true := by decide

/-- R96 and R98: source lines and their words. -/
theorem test_assemble_construct : assembleLine "CONSTRUCT 0x27, B, ROLE2".toList = some 0x100002A7 := by decide
theorem test_assemble_toggle : assembleLine "TOGGLE_RELAY 8, 1".toList = some 0x40000018 := by decide
theorem test_assemble_pollStart : assembleLine "POLL_START 50".toList = some 0x50000032 := by decide
/-- R97: a pseudo-command is its expansion. -/
theorem test_assemble_pseudo :
    assembleLine "RELAY_OFF 3".toList = assembleLine "TOGGLE_RELAY 3, 0".toList ∧
      assembleLine "CONSTRUCT_SENSOR 0x21, B".toList = some 0x100000A1 := by decide
/-- R96: an operand that does not fit is refused; interval 0 is not. -/
theorem test_assemble_refuses :
    assembleLine "WRITE_PORT 256".toList = none ∧ assembleLine "POLL_START 0".toList = some 0x50000000 := by decide

/-! ### The Bit Codec -/

/-- T-SB-1, T-SB-4, T-SB-6, T-SB-8. -/
theorem test_setBit :
    setBit 0xFF 2 false = 0xFB ∧ setBit 0x00 7 true = 0x80 ∧ setBit 0xAA 0 false = 0xAA ∧ setBit 0x55 7 true = 0xD5 := by
  decide

/-- T-DB-1, T-DB-3, T-DB-4, T-DB-8. -/
theorem test_diffBytes :
    diffBytes 0xFE 0xFF = ⟨0x01, 0x00⟩ ∧ diffBytes 0x7C 0xFE = ⟨0x82, 0x00⟩ ∧ diffBytes 0xFF 0x7C = ⟨0x83, 0x83⟩ ∧
      diffBytes 0x0F 0xF0 = ⟨0xFF, 0x0F⟩ := by decide

/-- T-DB-4's mapping. -/
theorem test_changeEntries : changeEntries 0x83 0x83 = [(1, true), (2, true), (8, true)] := by decide

/-- The response words of 2.2. -/
theorem test_responseWord :
    responseWord .ok 0x5A = 0x005A ∧ responseWord .transport 0x00 = 0x2000 ∧
      responseWord .subscriberOverflow 0x00 = 0xB000 := by decide

/-! ### One step of each command -/

/-- T-CON-14: the acceptance step only. -/
theorem test_construct_accepts :
    holdsNext (step (sysOffer Port.reset 0x10000120)) (fun t => t.busTrace == [] &&
      t.ports[0]? == some { Port.reset with
        deviceAddress := some 0x20, subPort := some .a, phase := .constructing, seq := some 0,
        cmd := some 0x10000120 }) = true := by decide

/-- The last step of T-CON-2. -/
theorem test_construct_last_step :
    holdsNext (step (sysPlan nearlyBuilt [.ok 0] [.construct 0])) (fun t =>
      t.busTrace == [⟨0, .write, 0x20, 0x12, some 0xFF, .ok⟩] && t.ports[0]? == some relayPort) = true := by decide

/-- T-RD-1. -/
theorem test_readPort :
    holdsNext (exec .readPort (sys (during relayPort 0x20000000) [.ok 0x5A])) (fun t =>
      t.busTrace == [⟨0, .read, 0x20, 0x12, some 0x5A, .ok⟩] && t.changeLog == [] &&
      t.ports[0]? == some { relayPort with currentByte := some 0x5A, response := some 0x005A }) = true := by decide

/-- T-RD-2. -/
theorem test_readPort_fails :
    holdsNext (exec .readPort (sys (during relayPort 0x20000000) [.fail])) (fun t =>
      t.busTrace == [⟨0, .read, 0x20, 0x12, none, .fail⟩] && t.errorLog == [] &&
      t.ports[0]? == some { relayPort with response := some 0x2000 }) = true := by decide

/-- T-WR-4. -/
theorem test_writePort_on_sensor :
    holdsNext (exec (.writePort 0x00) (sys (during sensorPort 0x30000000) [.ok 0])) (fun t =>
      t.busTrace == [⟨0, .write, 0x21, 0x13, some 0x00, .ok⟩] &&
      t.ports[0]? == some { sensorPort with currentByte := some 0x00 }) = true := by decide

/-- T-WR-2. -/
theorem test_writePort_fails :
    holdsNext (exec (.writePort 0xAA) (sys (during relayPort 0x300000AA) [.fail])) (fun t =>
      t.busTrace == [⟨0, .write, 0x20, 0x12, some 0xAA, .fail⟩] &&
      t.ports[0]? == some { relayPort with response := some 0x2000 }) = true := by decide

/-- T-TOG-15. -/
theorem test_toggleRelay :
    holdsNext (exec (.toggleRelay 5 true) (sys (during { relayPort with currentByte := some 0xFB } 0x40000015) [.ok 0]))
      (fun t => t.busTrace == [⟨0, .write, 0x20, 0x12, some 0xEB, .ok⟩] &&
        t.ports[0]? == some { relayPort with currentByte := some 0xEB }) = true := by decide

/-- T-TOG-11: the operand check comes before the role check. -/
theorem test_toggleRelay_precedence :
    holdsNext (exec (.toggleRelay 9 true) (sys (during sensorPort 0x40000019))) (fun t =>
      t.busTrace == [] && t.ports[0]? == some { sensorPort with response := some 0x6000, violation := true }) = true := by
  decide

/-- T-PS-6. -/
theorem test_pollStart :
    holdsNext (exec (.pollStart 65535) (sys (during relayPort 0x5000FFFF))) (fun t =>
      t.ports[0]? == some { relayPort with polling := true, interval := some 65535 }) = true := by decide

/-- T-PS-4: the operand check comes before the state check. -/
theorem test_pollStart_precedence :
    holdsNext (exec (.pollStart 0) (sys (during pollingPort 0x50000000))) (fun t =>
      t.ports[0]? == some { pollingPort with response := some 0x9000, violation := true }) = true := by decide

/-- T-PSTOP-1: the interval is kept. -/
theorem test_pollStop :
    holdsNext (exec .pollStop (sys (during pollingPort 0x60000000))) (fun t =>
      t.ports[0]? == some { pollingPort with polling := false } && !t.ready (.tick 0)) = true := by decide

/-- T-SUB-2. -/
theorem test_subscribe :
    holdsNext (exec (.subscribe 1) (sys (during pollingPort 0x70000001))) (fun t =>
      t.ports[0]? == some { pollingPort with subscribers := [1, 2, 1] }) = true := by decide

/-- T-SUB-3. -/
theorem test_subscribe_overflow :
    holdsNext (exec (.subscribe 3)
      { sys (during pollingPort 0x70000003) with cfg := { Config.standard with maxSubscribers := some 2 } }) (fun t =>
        t.ports[0]? == some { pollingPort with response := some 0xB000, violation := true }) = true := by decide

/-- T-TK-3. -/
theorem test_tick_changes :
    holdsNext (step (sysPlan { pollingPort with currentByte := some 0xFE } [.ok 0x7C] [.tick 0])) (fun t =>
      t.busTrace == [⟨0, .read, 0x21, 0x13, some 0x7C, .ok⟩] && t.changeLog == [⟨0, 0x82, 0x00, [1, 2]⟩] &&
      t.errorLog == [] && t.ports[0]? == some { pollingPort with currentByte := some 0x7C }) = true := by decide

/-- T-TK-4. -/
theorem test_tick_fails :
    holdsNext (step (sysPlan pollingPort [.fail] [.tick 0])) (fun t =>
      t.changeLog == [] && t.errorLog == [⟨0, .transport⟩] && t.ports[0]? == some pollingPort) = true := by decide

/-- T-TK-8: `P_EMIT_INVERT`. -/
theorem test_tick_inverted :
    holdsNext (step { sysPlan { pollingPort with currentByte := some 0x7C } [.ok 0xFF] [.tick 0] with
      cfg := { Config.standard with emitInvert := true } }) (fun t => t.changeLog == [⟨0, 0x83, 0x00, [1, 2]⟩]) = true := by
  decide

/-- T-ERR-2: ILLEGAL_COMMAND before PORT_FAILED. -/
theorem test_illegal_on_failed :
    holdsNext (step (sysOffer failedPort 0x80000000)) (fun t =>
      t.ports[0]? == some { failedPort with response := some 0x8000, violation := true }) = true := by decide

/-- R195: the first words a host gives under Program 4's configuration list. -/
theorem test_bootOffers : bootOffers Config.standard = [⟨0, 0x10000120⟩, ⟨1, 0x100000A0⟩] := by decide

/-- R195: what follows an OK response, and nothing after a failed construction. -/
theorem test_bootAfter :
    bootAfter 0x0000 ⟨0x21, .b, 0b00⟩ [1, 2] 50 = [.subscribe 1, .subscribe 2, .pollStart 50] ∧
      bootAfter 0x0000 ⟨0x20, .a, 0b01⟩ [] 50 = [] ∧ bootAfter 0x2000 ⟨0x21, .b, 0b00⟩ [1] 50 = [] := by decide

/-! ### Witnesses: a state and operands that meet the hypotheses of each statement -/

/-- The parameters with `P_INVALID_ROLE_WRITES_CONFIG` false. -/
def checkFirst : Config := { Config.standard with invalidRoleWritesConfig := false }

/-- An instance in its reset state. -/
theorem inv_resetPort (c : Config) : Port.reset.Inv c := by constructor <;> simp [Port.reset]

/-- The relay instance before its last construction step. -/
theorem inv_nearlyBuilt : nearlyBuilt.Inv Config.standard := by
  constructor
  case constructing =>
    exact fun _ => ⟨0x10000120, 0x20, .a, 0b01, 2, rfl, by decide, rfl, rfl, rfl, by decide, rfl, rfl, rfl, rfl, rfl⟩
  all_goals simp [nearlyBuilt, Port.reset]

theorem witness_EncodeDecodeAgree : decode 0x4000001F = .command (.toggleRelay 15 true) := by decide

/-- Pins 0, 1, 8, 9 and 15: both sides of both ends of the range. -/
theorem witness_PinIndexIsPinMinusOne :
    (1 ≤ (1#4).toNat ∧ (1#4).toNat ≤ 8) ∧ (1 ≤ (8#4).toNat ∧ (8#4).toNat ≤ 8) ∧
      ¬(1 ≤ (0#4).toNat ∧ (0#4).toNat ≤ 8) ∧ ¬(1 ≤ (9#4).toNat ∧ (9#4).toNat ≤ 8) ∧
      ¬(1 ≤ (15#4).toNat ∧ (15#4).toNat ≤ 8) := by decide

/-- Both unrecognised codes; a first step, a middle one and the last one of a relay construction; and both answers. -/
theorem witness_ConstructionStepMeaning :
    (0b10#2 = 0b10#2 ∨ 0b10#2 = 0b11#2) ∧ (0b11#2 = 0b10#2 ∨ 0b11#2 = 0b11#2) ∧
    ((sys nearlyBuilt [.fail]).Holds 0 nearlyBuilt ∧ nearlyBuilt.phase = .constructing ∧ nearlyBuilt.seq = some 2 ∧
      nearlyBuilt.cmd = some 0x10000120 ∧ nearlyBuilt.deviceAddress = some 0x20 ∧ nearlyBuilt.subPort = some .a ∧
      (sys nearlyBuilt [.fail]).nextAnswer = .fail ∧ (sys nearlyBuilt [.ok 0]).nextAnswer = .ok 0 ∧
      (prog Config.standard ((0x10000120#32).extractLsb' 8 2))[0]? = some (.iocon, 0x22) ∧
      (prog Config.standard ((0x10000120#32).extractLsb' 8 2))[1]? = some (.iodir, 0x00) ∧
      (prog Config.standard ((0x10000120#32).extractLsb' 8 2))[2]? = some (.gpio, 0xFF)) := by decide

theorem witness_DiffEntries : (4, true) ∈ changeEntries (diffBytes 0xFF 0xF7).mask (diffBytes 0xFF 0xF7).levels := by
  decide

/-- Illegal by opcode on a FAILED instance (T-ERR-2), and by a reserved bit on an idle CONFIGURED one (T-ERR-3). -/
theorem witness_IllegalWords :
    ((sysOffer failedPort 0x80000000).plan = [.command 0] ∧ (sysOffer failedPort 0x80000000).Holds 0 failedPort ∧
      failedPort.cmd = none ∧ (sysOffer failedPort 0x80000000).offered 0 = some 0x80000000 ∧
      decode 0x80000000 = .illegal .reservedOpcode) ∧
    ((sysOffer relayPort 0x20000001).Holds 0 relayPort ∧ relayPort.cmd = none ∧
      (sysOffer relayPort 0x20000001).offered 0 = some 0x20000001 ∧ decode 0x20000001 = .illegal .reservedBits) := by
  decide

theorem witness_StepRunsDecodedCommand :
    ((sysOffer relayPort 0x300000AA [.ok 0]).plan = [.command 0] ∧
      (sysOffer relayPort 0x300000AA [.ok 0]).Holds 0 relayPort ∧ relayPort.cmd = none ∧
      (sysOffer relayPort 0x300000AA [.ok 0]).offered 0 = some 0x300000AA ∧
      decode 0x300000AA = .command (.writePort 0xAA)) ∧
    decode 0x20000001 = .illegal .reservedBits := by decide

theorem witness_StepRunsDecodedCommand_next :
    ∃ t, exec .readPort (sys (during relayPort 0x20000000) [.ok 0x5A]) = .next t := ⟨_, rfl⟩

/-- The busy instance's construction step goes while a word waits for it. -/
theorem witness_BusyPortWaits :
    ∃ t, (sys nearlyBuilt).Holds 0 nearlyBuilt ∧ nearlyBuilt.cmd ≠ none ∧
      (nearlyBuilt.phase = .constructing ∧ nearlyBuilt.Inv Config.standard) ∧
      step { sysPlan nearlyBuilt [.ok 0] [.construct 0] with offers := [⟨0, 0x20000000⟩] } = .next t ∧
      t.offers = [⟨0, 0x20000000⟩] := ⟨_, by decide, by decide, ⟨by decide, inv_nearlyBuilt⟩, rfl, rfl⟩

/-- Both a tick and a command of the instance are ready. -/
theorem witness_TickReadyExactly :
    (sysOffer pollingPort 0x20000000).Holds 0 pollingPort ∧ (sysOffer pollingPort 0x20000000).ready (.tick 0) = true ∧
      (sysOffer pollingPort 0x20000000).ready (.command 0) = true := by decide

theorem witness_AnyReadyMoveMayGoNext :
    (sysOffer pollingPort 0x20000000).ready (.tick 0) = true ∧ (sys nearlyBuilt).ready (.construct 0) = true ∧
      State.reset.ready (.command 0) = false := by decide

/-- A FAILED, a CONFIGURED and an UNCONFIGURED instance, with a program of each length. -/
theorem witness_ConstructMeaning :
    ((sys failedPort).Holds 0 failedPort ∧ failedPort.phase = .failed) ∧
    ((sys relayPort).Holds 0 relayPort ∧ relayPort.phase = .configured) ∧
    ((sys Port.reset).Holds 0 Port.reset ∧ Port.reset.phase = .unconfigured ∧
      (prog Config.standard 0b00).length ≠ 0 ∧ (prog Config.standard 0b10).length ≠ 0 ∧
      (prog checkFirst 0b10).length = 0 ∧ (prog checkFirst 0b11).length = 0) := by decide

/-- The state `k` steps after `s`. -/
def stateAfter (k : Nat) (s : State) : State :=
  match Host.Core.run Sys2Proof.core k s with
  | .next t => t
  | .fault _ | .refused _ => s

/-- The instance is busy after each of the steps 1 to `n`. -/
def busyThrough (n p : Nat) (s : State) : Bool :=
  (List.range n).all fun j => ((stateAfter (j + 1) s).ports[p]?).all Port.busy

theorem busyThrough_spec {n p : Nat} {s : State} (h : busyThrough n p s = true) (j : Nat) (u : State) (Q : Port)
    (h1 : 1 ≤ j) (hj : j ≤ n) (hu : Host.Core.run Sys2Proof.core j s = .next u) (hQ : u.Holds p Q) : Q.cmd ≠ none := by
  have := List.all_eq_true.mp h (j - 1) (List.mem_range.mpr (by omega))
  rw [Nat.sub_add_cancel h1, stateAfter, hu] at this
  rw [State.Holds] at hQ
  simpa [hQ, Port.busy, Option.isSome_iff_ne_none] using this

/-- A sensor on instance 0 and a relay on instance 1, constructed turn by turn. -/
def twoConstructions : State :=
  { State.boot Config.standard with
    offers := [⟨0, 0x100000A1⟩, ⟨1, 0x10000120⟩], answers := List.replicate 7 (.ok 0),
    plan := [.command 0, .command 1, .construct 0, .construct 1, .construct 0, .construct 1, .construct 0, .construct 1,
      .construct 0] }

theorem witness_SensorConstruction_interleaved : ∃ P',
    ConstructedBetween twoConstructions (stateAfter 9 twoConstructions) 8 0 Port.reset P' 0x21 .b 0b00 ∧
      OwnWritesSucceed twoConstructions (stateAfter 9 twoConstructions) 0 :=
  ⟨_, ⟨rfl, rfl, rfl, by decide, rfl, rfl, rfl, rfl, busyThrough_spec (by decide)⟩, by unfold OwnWritesSucceed; decide⟩

theorem witness_RelayConstruction_interleaved : ∃ P',
    ConstructedBetween (stateAfter 1 twoConstructions) (stateAfter 8 twoConstructions) 6 1 Port.reset P' 0x20 .a 0b01 ∧
      Port.reset.Inv Config.standard ∧ OwnWritesSucceed (stateAfter 1 twoConstructions) (stateAfter 8 twoConstructions) 1 :=
  ⟨_, ⟨rfl, rfl, rfl, by decide, rfl, rfl, rfl, rfl, busyThrough_spec (by decide)⟩, inv_resetPort _,
    by unfold OwnWritesSucceed; decide⟩

/-- An unrecognised role on instance 0, with instance 1's acceptance in between; and one that is refused at acceptance. -/
theorem witness_UnrecognisedRole_interleaved :
    (let s := { twoConstructions with offers := [⟨0, 0x100002A7⟩, ⟨1, 0x10000120⟩] }
     s.cfg.invalidRoleWritesConfig = true ∧
       ∃ P', ConstructedBetween s (stateAfter 3 s) 2 0 Port.reset P' 0x27 .b 0b10) ∧
    (let s := { sysOffer Port.reset 0x10000320 with cfg := checkFirst }
     s.cfg.invalidRoleWritesConfig = false ∧
       ∃ P', ConstructedBetween s (stateAfter 1 s) 0 0 Port.reset P' 0x20 .a 0b11) :=
  ⟨⟨rfl, _, rfl, rfl, rfl, by decide, rfl, rfl, rfl, rfl, busyThrough_spec (by decide)⟩,
    rfl, _, rfl, rfl, rfl, by decide, rfl, rfl, rfl, rfl, busyThrough_spec (by decide)⟩

theorem witness_SensorConstruction :
    let s := sysOffer Port.reset 0x10000020 [.ok 1, .ok 2, .ok 3, .ok 4]
      [.construct 0, .construct 0, .construct 0, .construct 0]
    s.Holds 0 Port.reset ∧ Port.reset.phase = .unconfigured ∧ Port.reset.cmd = none ∧
      s.offered 0 = some (encode (.construct 0x20 .a 0b00)) ∧
      s.TransportReady ∧ s.plan = .command 0 :: .construct 0 :: .construct 0 :: .construct 0 :: .construct 0 :: [] ∧
      s.answers = .ok 1 :: .ok 2 :: .ok 3 :: .ok 4 :: [] := by decide

theorem witness_RelayConstruction :
    Port.reset.Inv Config.standard ∧
    let s := sysOffer Port.reset 0x100001A7 [.ok 1, .ok 2, .ok 3] [.construct 0, .construct 0, .construct 0]
    s.Holds 0 Port.reset ∧ Port.reset.phase = .unconfigured ∧ Port.reset.cmd = none ∧
      s.offered 0 = some (encode (.construct 0x27 .b 0b01)) ∧
      s.TransportReady ∧ s.plan = .command 0 :: .construct 0 :: .construct 0 :: .construct 0 :: [] ∧
      s.answers = .ok 1 :: .ok 2 :: .ok 3 :: [] := ⟨inv_resetPort _, by decide⟩

/-- T-CON-5, T-CON-7 and T-CON-6. -/
theorem witness_UnrecognisedRole :
    (Port.reset.Inv Config.standard ∧ Port.reset.Inv checkFirst) ∧
    (let s := sysOffer Port.reset 0x100002A7 [.ok 0] [.construct 0]
     s.Holds 0 Port.reset ∧ s.offered 0 = some (encode (.construct 0x27 .b 0b10)) ∧ s.TransportReady ∧
       s.cfg.invalidRoleWritesConfig = true ∧ s.plan = .command 0 :: .construct 0 :: [] ∧ s.answers = .ok 0 :: []) ∧
    (let s := sysOffer Port.reset 0x100002A7 [.fail] [.construct 0]
     s.Holds 0 Port.reset ∧ s.offered 0 = some (encode (.construct 0x27 .b 0b10)) ∧
       s.cfg.invalidRoleWritesConfig = true ∧ s.plan = .command 0 :: .construct 0 :: [] ∧ s.answers = .fail :: []) ∧
    (let s := { sysOffer Port.reset 0x10000320 with cfg := checkFirst }
     s.Holds 0 Port.reset ∧ s.offered 0 = some (encode (.construct 0x20 .a 0b11)) ∧
       s.cfg.invalidRoleWritesConfig = false ∧ s.plan = .command 0 :: []) :=
  ⟨⟨inv_resetPort _, inv_resetPort _⟩, by decide⟩

/-- T-CON-10. -/
theorem witness_ConstructionTransportFailure :
    let s := sysPlan nearlyBuilt [.fail] [.construct 0]
    s.plan = .construct 0 :: [] ∧ s.Holds 0 nearlyBuilt ∧ nearlyBuilt.phase = .constructing ∧ nearlyBuilt.seq = some 2 ∧
      nearlyBuilt.cmd = some 0x10000120 ∧ (prog s.cfg (roleField 0x10000120))[2]? = some (.gpio, 0xFF) ∧
      nearlyBuilt.deviceAddress = some 0x20 ∧ nearlyBuilt.subPort = some .a ∧ s.nextAnswer = .fail := by decide

/-- Each clause of READ_PORT's and WRITE_PORT's meaning. -/
theorem witness_ReadPortMeaning_WritePortMeaning :
    ((sys failedPort).Holds 0 failedPort ∧ failedPort.phase = .failed) ∧
    ((sys Port.reset).Holds 0 Port.reset ∧ Port.reset.phase = .unconfigured) ∧
    (relayPort.phase = .configured ∧ relayPort.deviceAddress = some 0x20 ∧ relayPort.subPort = some .a ∧
      (sys relayPort [.ok 0x5A]).Holds 0 relayPort ∧ (sys relayPort [.ok 0x5A]).nextAnswer = .ok 0x5A ∧
      (sys relayPort [.fail]).Holds 0 relayPort ∧ (sys relayPort [.fail]).nextAnswer = .fail) := by decide

/-- The clauses of TOGGLE_RELAY at the ends of the pin range: 0 and 9 are out of it, 1 and 8 in it. -/
theorem witness_ToggleRelayMeaning :
    (failedPort.phase = .failed ∧ Port.reset.phase = .unconfigured) ∧
    (relayPort.phase = .configured ∧ ¬(1 ≤ (0#4).toNat ∧ (0#4).toNat ≤ 8) ∧ ¬(1 ≤ (9#4).toNat ∧ (9#4).toNat ≤ 8)) ∧
    (sensorPort.phase = .configured ∧ 1 ≤ (1#4).toNat ∧ (8#4).toNat ≤ 8 ∧ sensorPort.role = some .sensorInput) ∧
    (relayPort.role = some .relayOutput ∧ relayPort.currentByte = some 0xFF ∧ relayPort.deviceAddress = some 0x20 ∧
      relayPort.subPort = some .a ∧ (sys relayPort [.ok 0]).nextAnswer = .ok 0 ∧
      (sys relayPort [.fail]).nextAnswer = .fail) := by decide

/-- One successful toggle, from a byte with the pin's bit set and from one with it clear. -/
theorem witness_Toggled_on : ∃ t, Toggled (sys relayPort [.ok 0, .ok 0]) 3 true t 0xFF 0xFB ∧
    ∃ u, Toggled t 3 true u 0xFB 0xFB :=
  ⟨_, ⟨by decide, by decide, rfl, rfl, _, _, rfl, rfl, rfl, rfl, rfl, rfl⟩, _,
    ⟨by decide, by decide, rfl, rfl, _, _, rfl, rfl, rfl, rfl, rfl, rfl⟩⟩

/-- On, then off: S5 and T-TOG-9. -/
theorem witness_Toggled_on_off : ∃ t u, Toggled (sys relayPort [.ok 0, .ok 0]) 3 true t 0xFF 0xFB ∧
    Toggled t 3 false u 0xFB 0xFF :=
  ⟨_, _, ⟨by decide, by decide, rfl, rfl, _, _, rfl, rfl, rfl, rfl, rfl, rfl⟩,
    ⟨by decide, by decide, rfl, rfl, _, _, rfl, rfl, rfl, rfl, rfl, rfl⟩⟩

/-- Pins 3 and 5 in both orders. -/
theorem witness_Toggled_commute : ∃ t u t' u', Toggled (sys relayPort [.ok 0, .ok 0]) 3 true t 0xFF 0xFB ∧
    Toggled t 5 true u 0xFB 0xEB ∧ Toggled (sys relayPort [.ok 0, .ok 0]) 5 true t' 0xFF 0xEF ∧
    Toggled t' 3 true u' 0xEF 0xEB :=
  ⟨_, _, _, _, ⟨by decide, by decide, rfl, rfl, _, _, rfl, rfl, rfl, rfl, rfl, rfl⟩,
    ⟨by decide, by decide, rfl, rfl, _, _, rfl, rfl, rfl, rfl, rfl, rfl⟩,
    ⟨by decide, by decide, rfl, rfl, _, _, rfl, rfl, rfl, rfl, rfl, rfl⟩,
    ⟨by decide, by decide, rfl, rfl, _, _, rfl, rfl, rfl, rfl, rfl, rfl⟩⟩

/-- The clauses of POLL_START: interval 0 on a polling and on a quiet instance, 1 on either, and the two phases. -/
theorem witness_PollStartMeaning :
    failedPort.phase = .failed ∧ Port.reset.phase = .unconfigured ∧ pollingPort.phase = .configured ∧
      pollingPort.polling = true ∧ sensorPort.phase = .configured ∧ sensorPort.polling = false ∧
      (1#16 : Interval) ≠ 0 ∧ (sys pollingPort).Holds 0 pollingPort ∧ (sys sensorPort).Holds 0 sensorPort := by decide

theorem witness_PollStopMeaning :
    ∃ t P', (sys pollingPort).Holds 0 pollingPort ∧ pollingPort.phase = .configured ∧ (100#16 : Interval) ≠ 0 ∧
      exec .pollStop (sys pollingPort) = .next t ∧ t.Holds t.active P' :=
  ⟨_, _, by decide, by decide, by decide, rfl, rfl⟩

/-- A step of another instance: POLL_STOP has completed on instance 0 and instance 1 takes a command. -/
theorem witness_PollStopCancelsTicks :
    (∃ t, (sys pollingPort).Holds 0 pollingPort ∧ exec .pollStop (sys pollingPort) = .next t) ∧
    ∃ t, sensorPort.polling = false ∧ step ((sys sensorPort).offerFirst 1 0x20000000) = .next t ∧
      ((sys sensorPort).offerFirst 1 0x20000000).chosen ≠ some (.command 0) :=
  ⟨⟨_, by decide, rfl⟩, _, by decide, rfl, by decide⟩

/-- The capacity 2, reached and not reached; and no capacity. -/
theorem witness_SubscribeMeaning :
    failedPort.phase = .failed ∧ Port.reset.phase = .unconfigured ∧ pollingPort.phase = .configured ∧
      ({ Config.standard with maxSubscribers := some 2 } : Config).maxSubscribers = some pollingPort.subscribers.length ∧
      ({ Config.standard with maxSubscribers := some 3 } : Config).maxSubscribers ≠ some pollingPort.subscribers.length ∧
      Config.standard.maxSubscribers ≠ some pollingPort.subscribers.length := by decide

theorem witness_TickMeaning :
    (sys pollingPort).Holds 0 pollingPort ∧ pollingPort.phase = .configured ∧ pollingPort.polling = true ∧
      pollingPort.cmd = none ∧ pollingPort.currentByte = some 0xFF ∧ pollingPort.deviceAddress = some 0x21 ∧
      pollingPort.subPort = some .b ∧ (sys pollingPort [.fail]).nextAnswer = .fail ∧
      (sys pollingPort [.ok 0xFF]).nextAnswer = .ok 0xFF ∧ (sys pollingPort [.ok 0xFE]).nextAnswer = .ok 0xFE ∧
      (0xFE#8) ≠ 0xFF#8 := by decide

/-- S8, and T-RD-6. -/
theorem witness_SameByteTwiceEmitsOnce :
    (∃ t u, (sys pollingPort [.ok 0xFE, .ok 0xFE]).ready (.tick 0) = true ∧
      (sys pollingPort [.ok 0xFE, .ok 0xFE]).nextAnswer = .ok 0xFE ∧
      perform (.tick 0) (sys pollingPort [.ok 0xFE, .ok 0xFE]) = .next t ∧ t.nextAnswer = .ok 0xFE ∧
      perform (.tick 0) t = .next u ∧ t.changeLog = [⟨0, 0x01, 0x00, [1, 2]⟩]) ∧
    ∃ t u, (sys (during pollingPort 0x20000000) [.ok 0xF7, .ok 0xF7]).Holds 0 (during pollingPort 0x20000000) ∧
      pollingPort.phase = .configured ∧
      exec .readPort (sys (during pollingPort 0x20000000) [.ok 0xF7, .ok 0xF7]) = .next t ∧ t.nextAnswer = .ok 0xF7 ∧
      perform (.tick 0) t = .next u ∧ u.busTrace.length = 2 :=
  ⟨⟨_, _, by decide, rfl, rfl, rfl, rfl, rfl⟩, _, _, by decide, by decide, rfl, rfl, rfl, rfl⟩

/-- T-TK-3 logs an event; T-TK-2 logs none. -/
theorem witness_ChangeEventsRecoverTheBytes :
    (∃ t P', (sys pollingPort [.ok 0x7C]).ready (.tick 0) = true ∧ pollingPort.currentByte = some 0xFF ∧
      perform (.tick 0) (sys pollingPort [.ok 0x7C]) = .next t ∧ t.Holds 0 P' ∧ t.changeLog ≠ []) ∧
    ∃ t P', perform (.tick 0) (sys pollingPort [.ok 0xFF]) = .next t ∧ t.Holds 0 P' ∧ t.changeLog = [] :=
  ⟨⟨_, _, by decide, by decide, rfl, rfl, by decide⟩, _, _, rfl, rfl, rfl⟩

/-- A move of each kind that answers a next state: the hypotheses of OnlyTicksLogEvents, RegistersAccessed,
OtherInstancesUntouched, InstancesDoNotCommunicate, SubscribersOnlyGrow, ViolationFlag and CachedByteFollowsGpio. -/
theorem witness_moves :
    (∃ t P', (sysOffer relayPort 0x40000013 [.ok 0]).ready (.command 0) = true ∧
      perform (.command 0) (sysOffer relayPort 0x40000013 [.ok 0]) = .next t ∧
      (sysOffer relayPort 0x40000013 [.ok 0]).Holds 0 relayPort ∧ t.Holds 0 P' ∧
      P'.currentByte ≠ relayPort.currentByte ∧ P'.cmd = none ∧ t.busTrace ≠ []) ∧
    (∃ t P', (sys nearlyBuilt [.ok 0]).ready (.construct 0) = true ∧
      perform (.construct 0) (sys nearlyBuilt [.ok 0]) = .next t ∧ (sys nearlyBuilt [.ok 0]).Holds 0 nearlyBuilt ∧
      t.Holds 0 P' ∧ P'.currentByte ≠ nearlyBuilt.currentByte ∧ t.busTrace ≠ []) ∧
    ∃ t P', (sys pollingPort [.ok 0xFE]).ready (.tick 0) = true ∧
      perform (.tick 0) (sys pollingPort [.ok 0xFE]) = .next t ∧ (sys pollingPort [.ok 0xFE]).Holds 0 pollingPort ∧
      t.Holds 0 P' ∧ P'.currentByte ≠ pollingPort.currentByte ∧ t.changeLog ≠ [] :=
  ⟨⟨_, _, by decide, rfl, by decide, rfl, by decide, rfl, by decide⟩,
    ⟨_, _, by decide, rfl, by decide, rfl, by decide, by decide⟩, _, _, by decide, rfl, by decide, rfl, by decide, by decide⟩

/-- The sensor instance before its first construction step: the role dispatch sets `currentByte` to 0xFF without GPIO. -/
theorem witness_CachedByteFollowsGpio_dispatch :
    ∃ t P', perform (.construct 0) (sys { Port.reset with
        deviceAddress := some 0x21, subPort := some .b, phase := .constructing, seq := some 0,
        cmd := some 0x100000A1 } [.ok 0]) = .next t ∧ t.Holds 0 P' ∧ P'.currentByte = some 0xFF :=
  ⟨_, _, rfl, rfl, rfl⟩

/-- SUBSCRIBE grows the list. -/
theorem witness_SubscribersOnlyGrow :
    ∃ t P', perform (.command 0) (sysOffer sensorPort 0x700000FF) = .next t ∧ t.Holds 0 P' ∧ P'.subscribers = [0xFF] :=
  ⟨_, _, rfl, rfl, rfl⟩

/-- What a transport that is not initialised makes of READ_PORT. -/
theorem witness_UninitialisedTransportFails : ∃ t,
    step { sysOffer relayPort 0x20000000 [.ok 0x5A] with transportReady := false } = .next t ∧
      t.busTrace = [⟨0, .read, 0x20, 0x12, none, .fail⟩] := ⟨_, rfl, rfl⟩

/-- One answer taken from a script, and one free value drawn. -/
theorem witness_OtherInstancesUntouched :
    (∃ t, exec .readPort (sys (during relayPort 0x20000000) [.ok 0x5A]) = .next t ∧
      t.busTrace ≠ (sys relayPort).busTrace ∧ t.answers = []) ∧
    ∃ t, perform (.tick 0) { sys pollingPort with transportReady := false } = .next t ∧
      t.busTrace ≠ (sys pollingPort).busTrace ∧ t.draws = 1 := ⟨⟨_, rfl, by decide, rfl⟩, _, rfl, by decide, rfl⟩

/-- A last construction step's response, an Illegal word's, and a READ_PORT's. -/
theorem witness_ResponseWords_moves :
    (∃ t P', (sys nearlyBuilt [.ok 0]).ready (.construct 0) = true ∧
      perform (.construct 0) (sys nearlyBuilt [.ok 0]) = .next t ∧ t.Holds 0 P' ∧ P'.response ≠ nearlyBuilt.response) ∧
    (∃ t P', (sysOffer failedPort 0x80000000).ready (.command 0) = true ∧
      perform (.command 0) (sysOffer failedPort 0x80000000) = .next t ∧ t.Holds 0 P' ∧ P'.cmd = none) ∧
    ∃ t P', (sysOffer relayPort 0x20000000 [.ok 0x5A]).ready (.command 0) = true ∧
      perform (.command 0) (sysOffer relayPort 0x20000000 [.ok 0x5A]) = .next t ∧ t.Holds 0 P' ∧
      decode 0x20000000 = .command .readPort ∧ P'.response = some 0x005A :=
  ⟨⟨_, _, by decide, rfl, rfl, by decide⟩, ⟨_, _, by decide, rfl, rfl, rfl⟩,
    _, _, by decide, rfl, rfl, by decide, rfl⟩

/-- WRITE_PORT and TOGGLE_RELAY on a polling relay, then a tick that reads the byte written and one that does not. -/
theorem witness_SameByteTwiceEmitsOnce_writes :
    let relay := { relayPort with polling := true, interval := some 50 }
    (∃ t u, exec (.writePort 0xAA) (sys relay [.ok 0, .ok 0xAA]) = .next t ∧ t.nextAnswer = .ok 0xAA ∧
      t.ready (.tick 0) = true ∧ perform (.tick 0) t = .next u) ∧
    (∃ t u, exec (.toggleRelay 1 true) (sys relay [.ok 0, .ok 0xFF]) = .next t ∧ relay.currentByte = some 0xFF ∧
      (0xFE : Byte) = 0xFF &&& ~~~(1#8 <<< ((1#4).toNat - 1)) ∧ t.nextAnswer = .ok 0xFF ∧
      t.ready (.tick 0) = true ∧ perform (.tick 0) t = .next u ∧ (0xFF : Byte) ≠ 0xFE) :=
  ⟨⟨_, _, rfl, rfl, by decide, rfl⟩, _, _, rfl, rfl, by decide, rfl, by decide, rfl, by decide⟩

/-- READ_PORT answered OK and a refusal; CONSTRUCT accepted stays busy. -/
theorem witness_ResponseWords :
    (∃ t P', (during relayPort 0x20000000).cmd ≠ none ∧
      (sys (during relayPort 0x20000000) [.ok 0x5A]).Holds 0 (during relayPort 0x20000000) ∧
      exec .readPort (sys (during relayPort 0x20000000) [.ok 0x5A]) = .next t ∧ t.Holds 0 P' ∧ P'.cmd = none) ∧
    ∃ t P', exec .pollStop (sys (during failedPort 0x60000000)) = .next t ∧ t.Holds 0 P' ∧
      P'.response ≠ failedPort.response :=
  ⟨⟨_, _, by decide, by decide, rfl, rfl, rfl⟩, _, _, rfl, rfl, by decide⟩

/-! ### The invariant -/

/-- A polling sensor. -/
theorem inv_pollingPort : pollingPort.Inv Config.standard := by
  constructor
  case responseForm => rintro r ⟨⟩; exact ⟨.ok, 0x00, rfl, fun _ => rfl, by decide⟩
  all_goals simp [pollingPort, sensorPort, Port.reset, sensorDirection, sensorPullup, sensorPolarity, Config.standard]

/-- A system of instances that meet the invariant, with empty logs. -/
theorem inv_sys {P : Port} (h : P.Inv Config.standard) (answers : List Answer) : (sys P answers).Inv := by
  refine ⟨?_, rfl, ?_, ?_, ?_⟩
  · rintro Q hQ
    rcases List.mem_cons.mp hQ with rfl | hQ
    · exact h
    · obtain rfl := List.mem_singleton.mp hQ
      exact inv_resetPort _
  all_goals simp [sys, State.boot]

/-- The hypotheses of StepKeepsInvariant and InvariantStatesStepOn, away from reset. -/
theorem witness_StepKeepsInvariant : ∃ t, (sys pollingPort [.ok 0xFE]).Inv ∧ step (sys pollingPort [.ok 0xFE]) = .next t :=
  ⟨_, inv_sys inv_pollingPort _, rfl⟩

/-- The three transitions of R28, on instances of the invariant: acceptance, an empty program, a last write and a failed
one. -/
theorem witness_PhaseTransitions :
    (∃ t P', Port.reset.Inv Config.standard ∧ (sysOffer Port.reset 0x10000120).ready (.command 0) = true ∧
      perform (.command 0) (sysOffer Port.reset 0x10000120) = .next t ∧ t.Holds 0 P' ∧ P'.phase = .constructing) ∧
    (∃ t P', Port.reset.Inv checkFirst ∧
      perform (.command 0) { sysOffer Port.reset 0x10000320 with cfg := checkFirst } = .next t ∧ t.Holds 0 P' ∧
      P'.phase = .failed) ∧
    (∃ t P', nearlyBuilt.Inv Config.standard ∧ (sys nearlyBuilt [.ok 0]).ready (.construct 0) = true ∧
      perform (.construct 0) (sys nearlyBuilt [.ok 0]) = .next t ∧ t.Holds 0 P' ∧ P'.phase = .configured) ∧
    ∃ t P', perform (.construct 0) (sys nearlyBuilt [.fail]) = .next t ∧ t.Holds 0 P' ∧ P'.phase = .failed :=
  ⟨⟨_, _, inv_resetPort _, by decide, rfl, rfl, rfl⟩, ⟨_, _, inv_resetPort _, rfl, rfl, rfl⟩,
    ⟨_, _, inv_nearlyBuilt, by decide, rfl, rfl, rfl⟩, _, _, rfl, rfl, rfl⟩

theorem witness_ConfigurationFixedAfterConstruction :
    ∃ t P', step (sysPlan pollingPort [.ok 0xFE] [.tick 0]) = .next t ∧ pollingPort.phase = .configured ∧ t.Holds 0 P' :=
  ⟨_, _, rfl, by decide, rfl⟩

theorem witness_FailedIsTerminal :
    ∃ t P', (sys failedPort).Holds 0 failedPort ∧ failedPort.phase = .failed ∧
      step (sysOffer failedPort 0x10000120) = .next t ∧ t.Holds 0 P' := ⟨_, _, by decide, by decide, rfl, rfl⟩

/-- Two states that differ in the other instance, the logs and the parameters' users only. -/
theorem witness_InstancesDoNotCommunicate :
    ∃ t₁ t₂, (sys pollingPort [.ok 0xFE]).cfg = ({ sys pollingPort [.ok 0xFE] with ports := [pollingPort, failedPort] }).cfg ∧
      (sys pollingPort [.ok 0xFE]).ports[(Move.tick 0).port]? =
        ({ sys pollingPort [.ok 0xFE] with ports := [pollingPort, failedPort] }).ports[(Move.tick 0).port]? ∧
      perform (.tick 0) (sys pollingPort [.ok 0xFE]) = .next t₁ ∧
      perform (.tick 0) { sys pollingPort [.ok 0xFE] with ports := [pollingPort, failedPort] } = .next t₂ :=
  ⟨_, _, rfl, rfl, rfl, rfl⟩

/-- Program 4's two instances, each before a construction step. -/
theorem witness_ConstructionStepsInterleave :
    let other := { nearlyBuilt with subPort := some .b }
    let s := { sys nearlyBuilt [.ok 1, .ok 2] with ports := [nearlyBuilt, other] }
    ∃ s₁ t₁ s₂ t₂, (0 : Nat) ≠ 1 ∧ perform (.construct 0) s = .next s₁ ∧ perform (.construct 1) s₁ = .next t₁ ∧
      perform (.construct 1) s = .next s₂ ∧ perform (.construct 0) s₂ = .next t₂ ∧
      busOutcome s.nextAnswer = .ok ∧ busOutcome s₁.nextAnswer = .ok ∧ busOutcome s₂.nextAnswer = .ok :=
  ⟨_, _, _, _, by decide, rfl, rfl, rfl, rfl, rfl, rfl, rfl⟩

/-- A well-formed command that completes, and each ill-formed one on a CONFIGURED instance. -/
theorem witness_OperandRefusals :
    (∃ t P', (Instr.toggleRelay 8 true).wellFormed = true ∧ (during relayPort 0x40000018).cmd ≠ none ∧
      exec (.toggleRelay 8 true) (sys (during relayPort 0x40000018) [.ok 0]) = .next t ∧ t.Holds 0 P' ∧ P'.cmd = none) ∧
    (Instr.construct 0x20 .a 0b11).wellFormed = false ∧ (Instr.toggleRelay 9 true).wellFormed = false ∧
      (Instr.pollStart 0).wellFormed = false ∧ (sys sensorPort).Holds 0 sensorPort ∧ sensorPort.phase = .configured :=
  ⟨⟨_, _, by decide, by decide, rfl, rfl, rfl⟩, by decide, by decide, by decide, by decide, by decide⟩

/-- Each command inside the contract. -/
theorem witness_ContractKeepsViolationClear :
    (∃ t P', Port.reset.phase = .unconfigured ∧ exec (.construct 0x20 .a 0b01) (sys Port.reset) = .next t ∧ t.Holds 0 P') ∧
    (∃ t P', exec .readPort (sys sensorPort [.ok 0]) = .next t ∧ t.Holds 0 P' ∧ sensorPort.phase = .configured) ∧
    (∃ t P', exec (.writePort 0) (sys sensorPort [.ok 0]) = .next t ∧ t.Holds 0 P') ∧
    (∃ t P', exec .pollStop (sys sensorPort) = .next t ∧ t.Holds 0 P') ∧
    (∃ t P', exec (.toggleRelay 8 true) (sys relayPort [.ok 0]) = .next t ∧ t.Holds 0 P' ∧
      relayPort.phase = .configured ∧ relayPort.role = some .relayOutput) ∧
    (∃ t P', exec (.pollStart 1) (sys sensorPort) = .next t ∧ t.Holds 0 P' ∧ sensorPort.polling = false) ∧
    ∃ t P', exec (.subscribe 3) (sys pollingPort) = .next t ∧ t.Holds 0 P' ∧
      Config.standard.maxSubscribers ≠ some pollingPort.subscribers.length :=
  ⟨⟨_, _, by decide, rfl, rfl⟩, ⟨_, _, rfl, rfl, by decide⟩, ⟨_, _, rfl, rfl⟩, ⟨_, _, rfl, rfl⟩,
    ⟨_, _, rfl, rfl, by decide, by decide⟩, ⟨_, _, rfl, rfl, by decide⟩, _, _, rfl, rfl, by decide⟩

/-- A run: the last construction step, then waiting. -/
def endingRun : Nat → State
  | 0 => sys nearlyBuilt [.ok 0]
  | _ + 1 => { sys relayPort with busTrace := [⟨0, .write, 0x20, 0x12, some 0xFF, .ok⟩] }

/-- Nothing is ready once the relay is constructed. -/
theorem endingRun_quiet (a : Move) (n : Nat) : (endingRun (n + 1)).ready a = false := by
  have h : (endingRun 1).readyMoves = [] := by decide
  by_contra hr
  have := State.mem_readyMoves.mpr (Bool.not_eq_false _ ▸ hr : (endingRun (n + 1)).ready a = true)
  rw [show endingRun (n + 1) = endingRun 1 from rfl, h] at this
  exact absurd this (by simp)

/-- The hypotheses of ConstructionEnds, and of ReliableConstructionSucceeds: the run's one transaction succeeds. -/
theorem witness_ConstructionEnds :
    IsRun endingRun ∧ WeaklyFair endingRun ∧ (endingRun 0).Inv ∧ (endingRun 0).Holds 0 nearlyBuilt ∧
      nearlyBuilt.phase = .constructing ∧ ReliableBus endingRun ∧ nearlyBuilt.cmd = some 0x10000120 ∧
      roleOf (roleField 0x10000120) ≠ none := by
  refine ⟨fun n => ?_, ⟨fun p n h => ?_, fun p n h => ?_⟩, inv_sys inv_nearlyBuilt _, by decide, by decide, fun n => ?_, by decide, by decide⟩
  · cases n with
    | zero => rfl
    | succ n => rfl
  · obtain ⟨a, -, h⟩ := h (n + 1) (Nat.le_succ n)
    exact absurd h (by simp [endingRun_quiet])
  · exact absurd (h (n + 1) (Nat.le_succ n)) (by simp [endingRun_quiet])
  · cases n with
    | zero => exact fun r h => absurd h (by simp [endingRun, sys, State.boot])
    | succ n => exact fun r h => by obtain rfl := List.mem_singleton.mp h; rfl

/-- A run from reset: CONSTRUCT of a relay, READ_PORT, then waiting. -/
def servingRun (n : Nat) : State :=
  stateAfter (min n 5)
    { State.boot Config.standard with
      offers := [⟨0, 0x10000120⟩, ⟨0, 0x20000000⟩], answers := [.ok 0, .ok 0, .ok 0, .ok 0x5A] }

theorem servingRun_rest (n : Nat) : servingRun (n + 5) = servingRun 5 := by simp [servingRun]

/-- R196's `reset` and `no_violation` of a whole run in which CONSTRUCT and READ_PORT complete. -/
theorem witness_NoViolationMeansNoOwnStatus :
    IsRun servingRun ∧ (servingRun 0).AtReset ∧ NoViolation servingRun ∧
      ∃ P ∈ (servingRun 5).ports, P.response = some 0x005A := by
  refine ⟨fun n => ?_, ⟨rfl, rfl, rfl, rfl⟩, fun n => ?_, by decide⟩
  · match n with
    | 0 | 1 | 2 | 3 | 4 => rfl
    | n + 5 => rw [show n + 5 + 1 = (n + 1) + 5 from rfl, servingRun_rest, servingRun_rest]; rfl
  · match n with
    | 0 | 1 | 2 | 3 | 4 => decide
    | n + 5 => rw [servingRun_rest]; decide

/-- R196's `distinct_ports` and R10's bound, of the parameters for this hardware. -/
theorem test_standard_configuration : Config.standard.DistinctPorts ∧ Config.standard.SomePort := by
  unfold Config.DistinctPorts Config.SomePort
  decide

/-- Program 2's ticks, the failed one left out. -/
theorem witness_PolledBytesReplay :
    let s := sysPlan pollingPort [.ok 0xFE, .ok 0xFE, .ok 0x7C, .ok 0xFF] [.tick 0, .tick 0, .tick 0, .tick 0]
    s.Holds 0 pollingPort ∧ pollingPort.phase = .configured ∧ pollingPort.polling = true ∧ pollingPort.cmd = none ∧
      pollingPort.currentByte = some 0xFF ∧ pollingPort.deviceAddress = some 0x21 ∧ pollingPort.subPort = some .b ∧
      s.TransportReady ∧ s.plan = List.replicate 4 (.tick 0) ++ [] ∧ s.answers = [0xFE, 0xFE, 0x7C, 0xFF].map .ok ++ [] := by decide

end Sys2Proof.Machine.Tests
end

section
/-! R41, R190: what a run under any configuration begins with. -/

namespace Sys2Proof.Machine

theorem State.length_ports_boot (c : Config) : (State.boot c).ports.length = c.nPorts := List.length_replicate

theorem State.eq_reset_of_mem_ports_boot {c : Config} {P : Port} (h : P ∈ (State.boot c).ports) : P = Port.reset :=
  List.eq_of_mem_replicate h

/-- Settles O14: the boot state holds `nPorts` copies of `Port.reset`, whose fields are the reset column of R21. -/
theorem resetState : Obligations.ResetState := by
  intro c
  refine ⟨rfl, State.length_ports_boot c, fun P hP => ?_, rfl, rfl, rfl⟩
  obtain rfl := State.eq_reset_of_mem_ports_boot hP
  simp [Port.reset]

end Sys2Proof.Machine
end

section
/-! The fields of a command word: what `place` puts where, and a format rule's `match` under its `mask` said as an opcode
and a field of zeros (R81). -/

namespace Sys2Proof

/-- The bits of an operand field put at bit `lo`. -/
theorem getLsbD_place {n : Nat} (lo : Nat) (v : BitVec n) {j : Nat} (hj : j < 32) :
    (place lo v).getLsbD j = (decide (lo ≤ j) && v.getLsbD (j - lo)) := by
  have hjlo : j - lo < 32 := by omega
  by_cases hlo : lo ≤ j <;> simp [place, BitVec.getLsbD_shiftLeft, -BitVec.getLsbD_eq_getElem, hj, hjlo, hlo]

/-- A field read where it was put. -/
@[simp] theorem extractLsb'_place_self {n lo : Nat} (h : lo + n ≤ 32) (v : BitVec n) :
    (place lo v).extractLsb' lo n = v := by
  refine word_ext fun i hi => ?_
  rw [BitVec.getLsbD_extractLsb', getLsbD_place lo v (by omega), Nat.add_sub_cancel_left]
  simp [hi]

/-- A field is zero where it was not put. -/
@[simp] theorem extractLsb'_place_disjoint {n m lo start : Nat} (hm : start + m ≤ 32) (h : lo + n ≤ start ∨ start + m ≤ lo)
    (v : BitVec n) : (place lo v).extractLsb' start m = 0#m := by
  refine word_ext fun i hi => ?_
  rw [BitVec.getLsbD_extractLsb', getLsbD_place lo v (by omega)]
  rcases h with h | h
  · simp [BitVec.getLsbD_of_ge v (start + i - lo) (by omega)]
  · simp [show ¬lo ≤ start + i by omega]

/-- A mask with ones from bit `lo` up keeps the bits from `lo` up. -/
theorem getLsbD_and_allOnes_shiftLeft (lo : Nat) (w : Word) {j : Nat} (hj : j < 32) :
    (w &&& (BitVec.allOnes 32 <<< lo)).getLsbD j = (decide (lo ≤ j) && w.getLsbD j) := by
  have hjlo : j - lo < 32 := by omega
  rw [BitVec.getLsbD_and, BitVec.getLsbD_shiftLeft, BitVec.getLsbD_allOnes]
  by_cases hlo : lo ≤ j <;> simp [hlo, hj, hjlo, Nat.lt_of_not_le]

/-- A row whose operands fill the bits below `lo` covers the words with its opcode and zeros in `[27:lo]`. -/
theorem and_mask_eq_iff {lo : Nat} (h : lo ≤ 28) (w : Word) (op : BitVec 4) :
    w &&& (BitVec.allOnes 32 <<< lo) = place 28 op ↔
      w.extractLsb' 28 4 = op ∧ w.extractLsb' lo (28 - lo) = 0#(28 - lo) := by
  constructor
  · intro hw
    have hbit : ∀ j, lo ≤ j → j < 32 → w.getLsbD j = (place 28 op).getLsbD j := fun j hl hj => by
      rw [← hw, getLsbD_and_allOnes_shiftLeft lo w hj, decide_eq_true hl, Bool.true_and]
    have hfield : ∀ start m, lo ≤ start → start + m ≤ 32 →
        w.extractLsb' start m = (place 28 op).extractLsb' start m := fun start m hl hm =>
      word_ext fun i hi => by
        rw [BitVec.getLsbD_extractLsb', BitVec.getLsbD_extractLsb', hbit (start + i) (by omega) (by omega)]
    exact ⟨(hfield 28 4 h (by omega)).trans (extractLsb'_place_self (by omega) op),
      (hfield lo (28 - lo) le_rfl (by omega)).trans (extractLsb'_place_disjoint (by omega) (by omega) op)⟩
  · rintro ⟨rfl, hz⟩
    refine word_ext fun j hj => ?_
    rw [getLsbD_and_allOnes_shiftLeft lo w hj, getLsbD_place 28 _ hj, BitVec.getLsbD_extractLsb']
    by_cases h28 : 28 ≤ j
    · simp [h28, show lo ≤ j by omega, show j - 28 < 4 by omega]
    · by_cases hl : lo ≤ j
      · have hb := congrArg (BitVec.getLsbD · (j - lo)) hz
        rw [BitVec.getLsbD_extractLsb', Nat.add_sub_cancel' hl] at hb
        simpa [hl, h28, show j - lo < 28 - lo by omega] using hb
      · simp [hl, h28]

/-- A one-bit field read where it was put. -/
theorem getLsbD_place_ofBool {lo : Nat} (h : lo < 32) (x : Bool) : (place lo (BitVec.ofBool x)).getLsbD lo = x := by
  simp [getLsbD_place lo (BitVec.ofBool x) h]

end Sys2Proof
end

section
/-! The format rules of the seven commands (R83 to R89): each word's opcode, operand fields and zeros, and the row of the
opcode table it matches. -/

namespace Sys2Proof

/-- The command's row of the opcode map (R82). -/
def Instr.opcode : Instr → BitVec 4
  | .construct _ _ _ => 0x1
  | .readPort => 0x2
  | .writePort _ => 0x3
  | .toggleRelay _ _ => 0x4
  | .pollStart _ => 0x5
  | .pollStop => 0x6
  | .subscribe _ => 0x7

/-- How many bits at the bottom of the command's word its operands fill; the bits from there to bit 27 are reserved. -/
def Instr.operandWidth : Instr → Nat
  | .construct _ _ _ => 10
  | .readPort => 0
  | .writePort _ => 8
  | .toggleRelay _ _ => 5
  | .pollStart _ => 16
  | .pollStop => 0
  | .subscribe _ => 8

theorem Instr.operandWidth_le (i : Instr) : i.operandWidth ≤ 28 := by cases i <;> simp [Instr.operandWidth]

/-- Bits [31:28] of a command's word (R82). -/
theorem encode_opcode (i : Instr) : (encode i).extractLsb' 28 4 = i.opcode := by
  cases i <;> simp [encode, Instr.opcode, BitVec.extractLsb'_or]

/-- The bits between the opcode and the operands are zero (R81). -/
theorem encode_reserved (i : Instr) :
    (encode i).extractLsb' i.operandWidth (28 - i.operandWidth) = 0#(28 - i.operandWidth) := by
  cases i <;> simp [encode, Instr.operandWidth, BitVec.extractLsb'_or]

/-- The command's word matches its row of the opcode table: opcode `op`, operands in the bits below `lo`. -/
theorem encode_matches (i : Instr) (lo : Nat) (op : BitVec 4) (hlo : i.operandWidth = lo) (hop : i.opcode = op) :
    encode i &&& (BitVec.allOnes 32 <<< lo) = place 28 op := by
  subst hlo hop
  exact (and_mask_eq_iff i.operandWidth_le _ _).mpr ⟨encode_opcode i, encode_reserved i⟩

/-- The operand fields of CONSTRUCT (R83). -/
theorem encode_construct_fields (dev : DeviceAddress) (sp : SubPort) (role : RoleCode) :
    let w := encode (.construct dev sp role)
    w.extractLsb' 8 2 = role ∧ w.getLsbD 7 = sp.toBit ∧ w.extractLsb' 0 7 = dev := by
  refine ⟨?_, ?_, ?_⟩
  · simp [encode, BitVec.extractLsb'_or]
  · simp [encode, BitVec.getLsbD_or, getLsbD_place, -BitVec.getLsbD_eq_getElem]
  · simp [encode, BitVec.extractLsb'_or]

/-- The operand fields of TOGGLE_RELAY (R86). -/
theorem encode_toggleRelay_fields (pin : BitVec 4) (asserted : Bool) :
    let w := encode (.toggleRelay pin asserted)
    w.getLsbD 4 = asserted ∧ w.extractLsb' 0 4 = pin := by
  refine ⟨?_, ?_⟩
  · simp [encode, BitVec.getLsbD_or, getLsbD_place, -BitVec.getLsbD_eq_getElem]
  · simp [encode, BitVec.extractLsb'_or]

/-- The operand of a command with one operand field, at bit 0, read back. -/
theorem extractLsb'_place_or_place {n : Nat} (h : n ≤ 28) (op : BitVec 4) (v : BitVec n) :
    (place 28 op ||| place 0 v).extractLsb' 0 n = v := by
  rw [BitVec.extractLsb'_or, extractLsb'_place_disjoint (by omega) (by omega), extractLsb'_place_self (by omega),
    BitVec.zero_or]

theorem SubPort.toBit_eq_true {sp : SubPort} : sp.toBit = true ↔ sp = .b := by cases sp <;> simp [SubPort.toBit]

end Sys2Proof

namespace Sys2Proof.Machine

theorem roleOf_eq_sensorInput {code : RoleCode} : roleOf code = some .sensorInput ↔ code = 0b00#2 := by
  revert code; decide

theorem roleOf_eq_relayOutput {code : RoleCode} : roleOf code = some .relayOutput ↔ code = 0b01#2 := by
  revert code; decide

theorem pinIndex_ne_none {pin : BitVec 4} : pinIndex pin ≠ none ↔ 1 ≤ pin.toNat ∧ pin.toNat ≤ 8 := by
  by_cases h : 1 ≤ pin.toNat ∧ pin.toNat ≤ 8
  · simp [pinIndex_of_range h, h]
  · simp only [pinIndex_of_not_range h, h, ne_eq, not_true_eq_false]

/-- Settles O2: the opcode, the zeros and the match are those of every command; the operand fields are the places they
were put. -/
theorem commandFormats : Obligations.CommandFormats := by
  refine ⟨fun dev sp role => ?_, ?_, fun v => ?_, fun pin asserted => ?_, fun ms => ?_, ?_, fun id => ?_⟩
  · obtain ⟨hrole, hsp, hdev⟩ := encode_construct_fields dev sp role
    exact ⟨encode_opcode _, encode_reserved (.construct dev sp role), hrole, hsp ▸ SubPort.toBit_eq_true, hdev,
      encode_matches (.construct dev sp role) 10 0x1 rfl rfl, roleOf_eq_sensorInput, roleOf_eq_relayOutput⟩
  · exact ⟨encode_opcode _, encode_reserved .readPort, encode_matches .readPort 0 0x2 rfl rfl⟩
  · exact ⟨encode_opcode _, encode_reserved (.writePort v), extractLsb'_place_or_place (by decide) _ v,
      encode_matches (.writePort v) 8 0x3 rfl rfl⟩
  · obtain ⟨hasserted, hpin⟩ := encode_toggleRelay_fields pin asserted
    exact ⟨encode_opcode _, encode_reserved (.toggleRelay pin asserted), hasserted, hpin,
      encode_matches (.toggleRelay pin asserted) 5 0x4 rfl rfl, pinIndex_ne_none⟩
  · exact ⟨encode_opcode _, encode_reserved (.pollStart ms), extractLsb'_place_or_place (by decide) _ ms,
      encode_matches (.pollStart ms) 16 0x5 rfl rfl, by simp [Instr.wellFormed]⟩
  · exact ⟨encode_opcode _, encode_reserved .pollStop, encode_matches .pollStop 0 0x6 rfl rfl⟩
  · exact ⟨encode_opcode _, encode_reserved (.subscribe id), extractLsb'_place_or_place (by decide) _ id,
      encode_matches (.subscribe id) 8 0x7 rfl rfl⟩

end Sys2Proof.Machine
end

section
/-! The Illegal words (R91): which they are, and the step that answers one. -/

namespace Sys2Proof

theorem exists_whenReservedZero_eq_illegal {z : Bool} {i : Instr} :
    (∃ why, whenReservedZero z i = .illegal why) ↔ z = false := by
  cases z <;> simp [whenReservedZero]

theorem whenReservedZero_ne_reservedOpcode (z : Bool) (i : Instr) :
    whenReservedZero z i ≠ .illegal .reservedOpcode := by
  cases z <;> simp [whenReservedZero]

/-- The decoder refuses exactly the words whose opcode and zeros are those of no command (R91). -/
theorem exists_decode_eq_illegal {w : Word} :
    (∃ why, decode w = .illegal why) ↔
      ¬(w.extractLsb' 28 4 = 0x1#4 ∧ w.extractLsb' 10 18 = 0#18) ∧
      ¬(w.extractLsb' 28 4 = 0x2#4 ∧ w.extractLsb' 0 28 = 0#28) ∧
      ¬(w.extractLsb' 28 4 = 0x3#4 ∧ w.extractLsb' 8 20 = 0#20) ∧
      ¬(w.extractLsb' 28 4 = 0x4#4 ∧ w.extractLsb' 5 23 = 0#23) ∧
      ¬(w.extractLsb' 28 4 = 0x5#4 ∧ w.extractLsb' 16 12 = 0#12) ∧
      ¬(w.extractLsb' 28 4 = 0x6#4 ∧ w.extractLsb' 0 28 = 0#28) ∧
      ¬(w.extractLsb' 28 4 = 0x7#4 ∧ w.extractLsb' 8 20 = 0#20) := by
  unfold decode
  dsimp only
  split_ifs <;> simp [exists_whenReservedZero_eq_illegal, *]

/-- The opcodes outside the opcode map are 0x0 and 0x8 to 0xF (R82). -/
theorem opcode_reserved_iff (op : BitVec 4) :
    (op ≠ 0x1#4 ∧ op ≠ 0x2#4 ∧ op ≠ 0x3#4 ∧ op ≠ 0x4#4 ∧ op ≠ 0x5#4 ∧ op ≠ 0x6#4 ∧ op ≠ 0x7#4) ↔
      op = 0x0#4 ∨ 8 ≤ op.toNat := by
  revert op; decide

/-- A word is refused for its opcode exactly when the opcode is outside the map (R91). -/
theorem decode_eq_reservedOpcode {w : Word} :
    decode w = .illegal .reservedOpcode ↔ w.extractLsb' 28 4 = 0x0#4 ∨ 8 ≤ (w.extractLsb' 28 4).toNat := by
  rw [← opcode_reserved_iff]
  unfold decode
  dsimp only
  split_ifs <;> simp [whenReservedZero_ne_reservedOpcode, *]

end Sys2Proof

namespace Sys2Proof.Machine

/-- The answer to an Illegal word on an idle port: nothing but the response and `violation` changes. -/
theorem accept_illegal (s : State) {p : Nat} {P : Port} (hc : P.cmd = none) (w : Word) :
    (s.accept p P w).setPort p ({ P with cmd := some w }.respond .illegalCommand 0x00) =
      { s with active := p, offers := s.offers.eraseP (fun o => o.port == p),
               ports := s.ports.set p { P with response := some 0x8000#16, violation := true } } := by
  have hP : ({ P with cmd := some w }.respond .illegalCommand 0x00 : Port) =
      { P with response := some 0x8000#16, violation := true } := by
    cases P
    simp_all [Port.respond, violationAfter, Status.setsViolation, responseWord, Status.code]
  simp only [hP, State.accept, State.setPort, List.set_set]

/-- A planned command step of an idle port offered an Illegal word. -/
theorem step_illegal {s : State} {p : Nat} {P : Port} {w : Word} {why : IllegalReason} {rest : List Move}
    (hpl : s.plan = .command p :: rest) (hP : s.Holds p P) (hc : P.cmd = none) (hw : s.offered p = some w)
    (hd : decode w = .illegal why) :
    step s = .next { s with
      plan := rest, active := p, offers := s.offers.eraseP (fun o => o.port == p),
      ports := s.ports.set p { P with response := some 0x8000#16, violation := true } } := by
  have hr : s.ready (.command p) = true := State.ready_command.mpr ⟨P, w, hP, hc, hw⟩
  have hstep : commandStep p { s with plan := rest } = _ := commandStep_eq hP hw
  rw [step_plan hpl hr, show perform (.command p) { s with plan := rest } = _ from hstep, hd]
  exact congrArg _ (accept_illegal { s with plan := rest } hc w)

/-- Settles O5: each row's `match` is an opcode and a field of zeros, and a word that fits none of the seven is what the
decoder refuses. -/
theorem illegalWords : Obligations.IllegalWords := by
  refine ⟨fun w => ?_, fun w => decode_eq_reservedOpcode, ⟨.reservedOpcode, by decide⟩,
    fun s p P w why rest hpl hP hc hw hd => step_illegal hpl hP hc hw hd⟩
  have row : ∀ lo op, lo ≤ 28 →
      (¬(w.extractLsb' 28 4 = op ∧ w.extractLsb' lo (28 - lo) = 0#(28 - lo)) ↔
      w &&& (BitVec.allOnes 32 <<< lo) ≠ place 28 op) := fun lo op h => (and_mask_eq_iff h w op).not.symm
  exact exists_decode_eq_illegal.trans <|
    and_congr (row 10 0x1 (by decide)) <| and_congr (row 0 0x2 (by decide)) <| and_congr (row 8 0x3 (by decide)) <|
    and_congr (row 5 0x4 (by decide)) <| and_congr (row 16 0x5 (by decide)) <| and_congr (row 0 0x6 (by decide)) <|
    row 8 0x7 (by decide)

end Sys2Proof.Machine
end

section
/-! Responses (R92): the fields of a response word, and what every command and every ready move answers. -/

namespace Sys2Proof.Machine

theorem responseWord_status (st : Status) (data : Byte) : (responseWord st data).extractLsb' 12 4 = st.code := by
  refine word_ext fun i hi => ?_
  interval_cases i <;> simp [responseWord]

theorem responseWord_zeros (st : Status) (data : Byte) : (responseWord st data).extractLsb' 8 4 = 0#4 := by
  refine word_ext fun i hi => ?_
  interval_cases i <;> simp [responseWord]

theorem responseWord_data (st : Status) (data : Byte) : (responseWord st data).extractLsb' 0 8 = data := by
  refine word_ext fun i hi => ?_
  interval_cases i <;> simp [responseWord]

/-- The port has completed a command: it is idle and holds a response word, whose data is the byte of the oracle's
answer `ans` if the command is a READ_PORT (`isRead`) answered OK, and 0x00 otherwise. -/
def Port.Completed (ans : Answer) (isRead : Prop) (P : Port) : Prop :=
  P.cmd = none ∧ ∃ st data, P.response = some (responseWord st data) ∧
    (¬(isRead ∧ st = .ok) → data = 0x00) ∧ (isRead ∧ st = .ok → ans = .ok data)

/-- A response that is no OK to a READ_PORT carries data 0x00. -/
theorem Port.respond_completed {ans : Answer} {isRead : Prop} (P : Port) {st : Status} (h : ¬(isRead ∧ st = .ok)) :
    (P.respond st 0x00).Completed ans isRead :=
  ⟨rfl, st, 0x00, rfl, fun _ => rfl, fun hr => absurd hr h⟩

/-- The fields of the response word of a completed command (R92). -/
theorem Port.Completed.fields {ans : Answer} {isRead : Prop} {P : Port} (h : P.Completed ans isRead) :
    P.cmd = none ∧ ∃ (st : Status) (data : Byte) (r : ResponseWord), P.response = some r ∧
      r.extractLsb' 12 4 = st.code ∧ r.extractLsb' 8 4 = 0#4 ∧ r.extractLsb' 0 8 = data ∧
      (¬(isRead ∧ st = .ok) → data = 0x00) ∧ (isRead ∧ st = .ok → ans = .ok data) := by
  obtain ⟨hc, st, data, hr, hother, hread⟩ := h
  exact ⟨hc, st, data, _, hr, responseWord_status st data, responseWord_zeros st data, responseWord_data st data,
    hother, hread⟩

/-- A command completes, or it is a CONSTRUCT the sequencer will answer and leaves `cmd` and the response as they were. -/
theorem CommandEffect.completed {c : Config} {ans : Answer} {p : Nat} {i : Instr} {P P' : Port} {r : Option BusRecord}
    (h : CommandEffect c ans p i P P' r) :
    (P'.cmd = P.cmd ∧ P'.response = P.response) ∨ P'.Completed ans (i = .readPort) := by
  cases h
  case accepted => exact .inl ⟨rfl, rfl⟩
  case readOk d sp b ha h hd hs =>
    exact .inr ⟨rfl, .ok, b, rfl, fun hn => absurd ⟨rfl, rfl⟩ hn, fun _ => ha⟩
  all_goals exact .inr (Port.respond_completed _ (by simp))

/-- A ready move completes a command, or it leaves the response as it was and makes no port idle. -/
theorem StepEffect.completed {c : Config} {ans : Answer} {offer : Option Word} {a : Move} {P P' : Port}
    {r : Option BusRecord} {e : Events} (h : StepEffect c ans offer a P P' r e) :
    (P'.response = P.response ∧ (P'.cmd = none → P.cmd = none ∧ a ≠ .command a.port)) ∨
      ((a = .command a.port ∨ a = .construct a.port) ∧
        P'.Completed ans (a = .command a.port ∧ ∃ w, offer = some w ∧ decode w = .command .readPort)) := by
  cases h
  case illegal => exact .inr ⟨.inl rfl, Port.respond_completed _ (by simp)⟩
  case command p w i ho hd h =>
    rcases h.completed with ⟨hc, hr⟩ | hdone
    · exact .inl ⟨hr, fun hn => absurd (hc.symm.trans hn) (by simp)⟩
    · have hread : (i = .readPort) = (Move.command p = .command p ∧
          ∃ w, offer = some w ∧ decode w = .command .readPort) := by simp [ho, hd]
      exact .inr ⟨.inl rfl, hread ▸ hdone⟩
  case constructGoesOn => exact .inl (by simp)
  case constructFailed | constructed | unrecognised => exact .inr ⟨.inr rfl, Port.respond_completed _ (by simp)⟩
  case tickFailed | tickSame | tickChanged => exact .inl ⟨rfl, fun hn => ⟨hn, by simp⟩⟩

/-- A ready move leaves every other port as it was and has one of its effects on its own. -/
theorem perform_port_of_ready {a : Move} {s t : State} {p : Nat} {P P' : Port} (hr : s.ready a = true)
    (h : perform a s = .next t) (hP : s.port? p = some P) (hP' : t.port? p = some P') :
    (a.port ≠ p ∧ P' = P) ∨
      (a.port = p ∧ ∃ r e, StepEffect s.cfg s.nextAnswer (s.offered p) a P P' r e) := by
  obtain ⟨Q, Q', r, e, hQ, he, ha⟩ := perform_effect_of_ready hr h
  by_cases hp : a.port = p
  · subst hp
    obtain rfl := Option.some.inj (hP.symm.trans hQ)
    obtain rfl := Option.some.inj (hP'.symm.trans (ha.port?_self hP))
    exact .inr ⟨rfl, r, e, he⟩
  · exact .inl ⟨hp, Option.some.inj (hP'.symm.trans ((ha.port?_of_ne (Ne.symm hp)).trans hP))⟩

/-- Settles O39: by the effects of a command and of a ready move, each completes a command or meets none of the conditions
on a response. -/
theorem responseWords : Obligations.ResponseWords := by
  refine ⟨fun i s t P P' hP hbusy hx hP' hdone => ?_, fun a s t p P P' hr hx hP hP' hdone => ?_⟩
  · obtain ⟨Q, Q', r, hQ, he, rfl⟩ := exec_effect hx
    obtain rfl := Option.some.inj (hP.symm.trans hQ)
    obtain rfl := Option.some.inj (hP'.symm.trans ((s.withEffect_after s.active Q' r).port?_self hQ))
    rcases he.completed with ⟨hc, hresp⟩ | hcompleted
    · exact absurd hdone (by simp [hc, hbusy, hresp])
    · exact hcompleted.fields
  · rcases perform_port_of_ready hr hx hP hP' with ⟨hp, rfl⟩ | ⟨rfl, r, e, he⟩
    · obtain hresp | ⟨hidle, hbusy | rfl⟩ := hdone
      · exact absurd rfl hresp
      · exact absurd hidle hbusy
      · exact absurd rfl hp
    · rcases he.completed with ⟨hresp, hidle⟩ | ⟨ha, hcompleted⟩
      · obtain hne | ⟨hc, hbusy | ha⟩ := hdone
        · exact absurd hresp hne
        · exact absurd (hidle hc).1 hbusy
        · exact absurd ha (hidle hc).2
      · obtain ⟨hc, st, data, r, hfields⟩ := hcompleted.fields
        exact ⟨ha, hc, st, data, r, by simpa only [and_assoc] using hfields⟩

end Sys2Proof.Machine
end

section
/-! The assembler (R96 to R98): the pseudo-commands and the worked encodings. -/

namespace Sys2Proof.Machine

theorem parseCommand_toggleRelay (x y : List Char) :
    parseCommand "TOGGLE_RELAY".toList [x, y] =
      (parseNumber x).bind fun pin => (parseAssert y).map fun on => .toggleRelay pin on := rfl

theorem parseCommand_construct (x y z : List Char) :
    parseCommand "CONSTRUCT".toList [x, y, z] =
      (parseNumber x).bind fun dev => (parseSubPort y).bind fun sp => (parseRole z).map fun r => .construct dev sp r := rfl

theorem parseCommand_relayOn (x : List Char) :
    parseCommand "RELAY_ON".toList [x] = (parseNumber x).map .relayOn := rfl

theorem parseCommand_relayOff (x : List Char) :
    parseCommand "RELAY_OFF".toList [x] = (parseNumber x).map .relayOff := rfl

theorem parseCommand_constructSensor (x y : List Char) :
    parseCommand "CONSTRUCT_SENSOR".toList [x, y] =
      (parseNumber x).bind fun dev => (parseSubPort y).map fun sp => .constructSensor dev sp := rfl

theorem parseCommand_constructRelay (x y : List Char) :
    parseCommand "CONSTRUCT_RELAY".toList [x, y] =
      (parseNumber x).bind fun dev => (parseSubPort y).map fun sp => .constructRelay dev sp := rfl

/-- Settles O7: with its last operand's text read, the full command builds what the pseudo-command stands for. -/
theorem pseudoCommandsExpand : Obligations.PseudoCommandsExpand := by
  intro x y
  have hassert : parseAssert "1".toList = some true ∧ parseAssert "0".toList = some false := by decide
  have hrole : parseRole "SENSOR".toList = some 0b00 ∧ parseRole "RELAY".toList = some 0b01 := by decide
  rw [parseCommand_relayOn, parseCommand_relayOff, parseCommand_constructSensor, parseCommand_constructRelay,
    parseCommand_toggleRelay, parseCommand_toggleRelay, parseCommand_construct, parseCommand_construct,
    hassert.1, hassert.2, hrole.1, hrole.2]
  refine ⟨?_, ?_, ?_, ?_⟩
  · cases parseNumber x <;> rfl
  · cases parseNumber x <;> rfl
  · cases parseNumber x <;> cases parseSubPort y <;> rfl
  · cases parseNumber x <;> cases parseSubPort y <;> rfl

/-- Settles O1: each worked word is decoded, and each worked line assembled, by evaluation. -/
theorem workedWordsDecode : Obligations.WorkedWordsDecode := by
  unfold Obligations.WorkedWordsDecode
  decide

end Sys2Proof.Machine
end

section
/-! The Bit Codec's laws (R101 to R104), from what its functions do to each lane of a byte (R105). -/

namespace Sys2Proof.Machine

/-- Settles O8: two bytes are equal lane by lane, and `setBit` writes one lane and passes the others. -/
theorem setBitLaws : Obligations.SetBitLaws := by
  intro b i x y
  refine ⟨byte_ext fun k => ?overwrite, ?readback, fun j hj => ?frame, byte_ext fun k => ?identity,
    fun j hij => byte_ext fun k => ?commute⟩
  case overwrite =>
    simp only [setBit_lane]
    split_ifs <;> rfl
  case readback => rw [setBit_lane, if_pos rfl]
  case frame => rw [setBit_lane, if_neg hj]
  case identity =>
    rw [setBit_lane]
    split_ifs with hk
    · rw [hk]
    · rfl
  case commute =>
    simp only [setBit_lane]
    split_ifs with hkj hki
    · exact absurd (hki.symm.trans hkj) hij
    · rfl
    · rfl
    · rfl

theorem diffBytes_mask (new old : Byte) : (diffBytes new old).mask = new ^^^ old := rfl

theorem diffBytes_levels (new old : Byte) : (diffBytes new old).levels = new &&& (new ^^^ old) := rfl

/-- No byte differs from itself: the change set is empty. -/
theorem diffBytes_self (b : Byte) : diffBytes b b = ⟨0x00, 0x00⟩ := by
  simp [diffBytes]

/-- In a differing lane exactly one of the two bytes has a 1, so the two level bytes add up to the mask. -/
theorem diffBytes_levels_xor_swap (new old : Byte) :
    (diffBytes new old).levels ^^^ (diffBytes old new).levels = (diffBytes new old).mask := by
  refine byte_ext fun j => ?_
  rw [BitVec.getLsbD_xor, diffBytes_levels_lane, diffBytes_levels_lane, diffBytes_mask_lane]
  cases new.getLsbD j <;> cases old.getLsbD j <;> rfl

/-- A level is 1 only where the mask is. -/
theorem diffBytes_levels_and_not_mask (new old : Byte) :
    (diffBytes new old).levels &&& ~~~(diffBytes new old).mask = 0x00 := by
  rw [diffBytes_levels, diffBytes_mask, BitVec.and_assoc, BitVec.and_not_self]
  exact BitVec.and_zero

/-- Settles O9: the mask is the exclusive or of the two bytes, and the levels are its lanes where the new byte has a 1. -/
theorem diffBytesLaws : Obligations.DiffBytesLaws := by
  intro new old
  refine ⟨diffBytes_self new, changeEntries_length _ _, ?_, ?_, BitVec.xor_comm new old,
    diffBytes_levels_xor_swap new old, diffBytes_levels_and_not_mask new old⟩
  · rw [diffBytes_mask]
    exact BitVec.xor_eq_zero_iff
  · rw [diffBytes_mask, ← BitVec.xor_assoc, BitVec.xor_self, BitVec.zero_xor]

/-- Where the bytes differ, the level of a lane is the new bit. -/
theorem diffBytes_levels_lane_of_ne {new old : Byte} {j : Nat} (h : new.getLsbD j ≠ old.getLsbD j) :
    (diffBytes new old).levels.getLsbD j = new.getLsbD j := by
  rw [diffBytes_levels_lane, Bool.xor_iff_ne.mpr h, Bool.and_true]

/-- The mask is 1 exactly in the lanes where the bytes differ. -/
theorem diffBytes_mask_lane_eq_true {new old : Byte} {j : Nat} :
    (diffBytes new old).mask.getLsbD j = true ↔ new.getLsbD j ≠ old.getLsbD j := by
  rw [diffBytes_mask_lane, Bool.xor_iff_ne]

/-- Settles O10: an entry is a lane of the mask, which is a lane where the bytes differ, and its level is the new bit. -/
theorem diffEntriesAreTheDifferingPins : Obligations.DiffEntriesAreTheDifferingPins := by
  intro new old pin level
  refine ⟨diffBytes_mask new old, diffBytes_levels new old, mem_changeEntries.trans ⟨?_, ?_⟩⟩
  · rintro ⟨i, hi, hmask, hpin, hlevel⟩
    have hne := diffBytes_mask_lane_eq_true.mp hmask
    exact ⟨⟨i, hi⟩, hpin, hne, hlevel.trans (diffBytes_levels_lane_of_ne hne)⟩
  · rintro ⟨i, hpin, hne, hlevel⟩
    exact ⟨i, i.isLt, diffBytes_mask_lane_eq_true.mpr hne, hpin, hlevel.trans (diffBytes_levels_lane_of_ne hne).symm⟩

/-- Settles O11: the index of a pin in 1..8 is a bit of a byte, and the other field values have none. -/
theorem pinIndexIsPinMinusOne : Obligations.PinIndexIsPinMinusOne :=
  fun _ => ⟨fun h => ⟨_, pinIndex_of_range h, rfl⟩, pinIndex_of_not_range⟩

end Sys2Proof.Machine
end

section
/-! The one-step commands of the Port Driver (R112, R123 to R129): each next state written out, with the response word and
`violation` that its status gives. -/

namespace Sys2Proof.Machine

/-- A status of R167 that leaves `violation` alone answers the port and changes nothing else. -/
theorem Port.respond_eq_answered {st : Status} (h : st.setsViolation = false) (P : Port) (data : Byte) :
    P.respond st data = P.answered (responseWord st data) := by
  simp [Port.respond, violationAfter, h]

/-- A status of R168 answers the port and sets `violation`. -/
theorem Port.respond_eq_answeredViolation {st : Status} (h : st.setsViolation = true) (P : Port) (data : Byte) :
    P.respond st data = P.answeredViolation (responseWord st data) := by
  simp [Port.respond, violationAfter, h]

/-- The response word of OK is its data byte (R92). -/
theorem responseWord_ok (data : Byte) : responseWord .ok data = data.setWidth 16 := by
  simp [responseWord, Status.code]

/-- A recorded transaction and its port's new fields are the whole change. -/
theorem State.setPort_record (s : State) (r : BusRecord) (P : Port) : (s.record r).setPort r.port P = s.afterBus r P := by
  simp [State.setPort, State.record]

/-- A refusal that sets `violation`, as a next state. -/
theorem State.setPort_respond_violation {st : Status} (h : st.setsViolation = true) (s : State) (P : Port) :
    s.setPort s.active (P.respond st 0x00) = s.withExecuting (P.answeredViolation (responseWord st 0x00)) := by
  rw [P.respond_eq_answeredViolation h]
  rfl

/-- A transaction and an answer that leaves `violation` alone, as a next state. -/
theorem State.setPort_record_respond {st : Status} (h : st.setsViolation = false) (s : State) (r : BusRecord) (P : Port)
    (data : Byte) :
    (s.record r).setPort r.port (P.respond st data) = s.afterBus r (P.answered (responseWord st data)) := by
  rw [P.respond_eq_answered h, State.setPort_record]

/-- A GPIO write of a located port whose transaction succeeds (R125). -/
theorem State.writeGpio_ok {s : State} {P : Port} {dev : DeviceAddress} {sp : SubPort} {b : Byte} (v : Byte) (p : Nat)
    (hd : P.deviceAddress = some dev) (hs : P.subPort = some sp) (ha : s.nextAnswer = .ok b) :
    s.writeGpio p P v = .next (s.afterBus ⟨p, .write, dev, s.cfg.regs.addr .gpio sp, some v, .ok⟩
      ({ P with currentByte := some v }.answered 0x0000#16)) :=
  State.writeGpio_next.mpr ⟨dev, sp, hd, hs, .inr ⟨busOutcome_eq_ok.mpr ⟨b, ha⟩,
    (State.setPort_record_respond (st := .ok) rfl s _ _ 0x00).symm⟩⟩

/-- A GPIO write of a located port whose transaction fails (R126). -/
theorem State.writeGpio_fail {s : State} {P : Port} {dev : DeviceAddress} {sp : SubPort} (v : Byte) (p : Nat)
    (hd : P.deviceAddress = some dev) (hs : P.subPort = some sp) (ha : s.nextAnswer = .fail) :
    s.writeGpio p P v = .next (s.afterBus ⟨p, .write, dev, s.cfg.regs.addr .gpio sp, some v, .fail⟩
      (P.answered 0x2000#16)) :=
  State.writeGpio_next.mpr ⟨dev, sp, hd, hs, .inl ⟨busOutcome_eq_fail.mpr ha,
    (State.setPort_record_respond (st := .transport) rfl s _ _ 0x00).symm⟩⟩

/-- Every command on a FAILED port is refused with PORT_FAILED (R172). -/
theorem exec_portFailed {s : State} {P : Port} (hP : s.port? s.active = some P) (h : P.phase = .failed) (i : Instr) :
    exec i s = .next (s.withExecuting (P.answeredViolation 0x5000#16)) := by
  have ht := (s.setPort_respond_violation (st := .portFailed) rfl P).symm
  cases i with
  | construct dev sp role => exact execConstruct_next.mpr ⟨P, hP, .inl ⟨h, ht⟩⟩
  | readPort => exact execReadPort_next.mpr ⟨P, hP, .inl ⟨h, ht⟩⟩
  | writePort v => exact execWritePort_next.mpr ⟨P, hP, .inl ⟨h, ht⟩⟩
  | toggleRelay pin a => exact execToggleRelay_next.mpr ⟨P, hP, .inl ⟨h, ht⟩⟩
  | pollStart ms => exact execPollStart_next.mpr ⟨P, hP, .inl ⟨h, ht⟩⟩
  | pollStop => exact execPollStop_next.mpr ⟨P, hP, .inl ⟨h, ht⟩⟩
  | subscribe id => exact execSubscribe_next.mpr ⟨P, hP, .inl ⟨h, ht⟩⟩

/-- Every command but CONSTRUCT on an UNCONFIGURED port is refused with NOT_CONFIGURED (R172). -/
theorem exec_notConfigured {s : State} {P : Port} {i : Instr} (hP : s.port? s.active = some P)
    (h : P.phase = .unconfigured) (hi : ∀ dev sp role, i ≠ .construct dev sp role) :
    exec i s = .next (s.withExecuting (P.answeredViolation 0x3000#16)) := by
  have ht := (s.setPort_respond_violation (st := .notConfigured) rfl P).symm
  cases i with
  | construct dev sp role => exact absurd rfl (hi dev sp role)
  | readPort => exact execReadPort_next.mpr ⟨P, hP, .inr (.inl ⟨h, ht⟩)⟩
  | writePort v => exact execWritePort_next.mpr ⟨P, hP, .inr (.inl ⟨h, ht⟩)⟩
  | toggleRelay pin a => exact execToggleRelay_next.mpr ⟨P, hP, .inr (.inl ⟨h, ht⟩)⟩
  | pollStart ms => exact execPollStart_next.mpr ⟨P, hP, .inr (.inl ⟨h, ht⟩)⟩
  | pollStop => exact execPollStop_next.mpr ⟨P, hP, .inr (.inl ⟨h, ht⟩)⟩
  | subscribe id => exact execSubscribe_next.mpr ⟨P, hP, .inr (.inl ⟨h, ht⟩)⟩

/-- Settles O19: the four outcomes of CONSTRUCT by phase and program length; an empty program names no role. -/
theorem constructMeaning : Obligations.ConstructMeaning := by
  intro s P dev sp code hP
  refine ⟨fun h => exec_portFailed hP h _, fun h => ?_, fun h hl => ?_, fun h hl => ?_⟩
  · exact execConstruct_next.mpr
      ⟨P, hP, .inr (.inl ⟨h, (s.setPort_respond_violation (st := .alreadyConfigured) rfl P).symm⟩)⟩
  · exact execConstruct_next.mpr ⟨P, hP, .inr (.inr (.inl ⟨.inl h, hl, rfl⟩))⟩
  · have hr : roleOf code = none := Classical.byContradiction fun hr => prog_ne_nil_of_role hr hl
    refine execConstruct_next.mpr ⟨P, hP, .inr (.inr (.inr ⟨.inl h, hl, hr, ?_⟩))⟩
    rw [Port.respond_eq_answered (st := .invalidRole) rfl]
    rfl

/-- Settles O25: the two refusals, and the one read with either answer. -/
theorem readPortMeaning : Obligations.ReadPortMeaning := by
  intro s P hP
  refine ⟨fun h => exec_portFailed hP h _, fun h => exec_notConfigured hP h (by simp),
    fun dev sp h hd hs => ⟨fun b ha => ?_, fun ha => ?_⟩⟩
  · refine execReadPort_next.mpr ⟨P, hP, .inr (.inr ⟨.inr h, dev, sp, hd, hs, .inr ⟨b, ha, ?_⟩⟩)⟩
    rw [← responseWord_ok]
    exact (State.setPort_record_respond (st := .ok) rfl s _ _ b).symm
  · exact execReadPort_next.mpr ⟨P, hP, .inr (.inr ⟨.inr h, dev, sp, hd, hs, .inl ⟨ha,
      (State.setPort_record_respond (st := .transport) rfl s _ _ 0x00).symm⟩⟩)⟩

/-- Settles O26: the two refusals, and the one write of the value. -/
theorem writePortMeaning : Obligations.WritePortMeaning := by
  intro s P value hP
  refine ⟨fun h => exec_portFailed hP h _, fun h => exec_notConfigured hP h (by simp),
    fun dev sp h hd hs => ⟨fun b ha => ?_, fun ha => ?_⟩⟩
  · exact execWritePort_next.mpr ⟨P, hP, .inr (.inr ⟨.inr h, State.writeGpio_ok value _ hd hs ha⟩)⟩
  · exact execWritePort_next.mpr ⟨P, hP, .inr (.inr ⟨.inr h, State.writeGpio_fail value _ hd hs ha⟩)⟩

/-- The byte TOGGLE_RELAY writes: the pin's bit is cleared for `assert` 1 and set for `assert` 0 (R127). -/
theorem setBit_relayBit (b : Byte) (i : Fin 8) (asserted : Bool) :
    setBit b i (relayBit asserted) = if asserted then b &&& ~~~(1#8 <<< i.val) else b ||| (1#8 <<< i.val) := by
  cases asserted <;> rfl

/-- TOGGLE_RELAY of a pin in 1..8 on a CONFIGURED relay is a GPIO write of the cached byte with the pin's bit replaced. -/
theorem execToggleRelay_relay {s : State} {P : Port} {pin : BitVec 4} {b : Byte} (asserted : Bool)
    (hP : s.port? s.active = some P) (h : P.phase = .configured) (hpin : 1 ≤ pin.toNat ∧ pin.toNat ≤ 8)
    (hr : P.role = some .relayOutput) (hb : P.currentByte = some b) :
    execToggleRelay pin asserted s = s.writeGpio s.active P (if asserted then b &&& ~~~(1#8 <<< (pin.toNat - 1))
      else b ||| (1#8 <<< (pin.toNat - 1))) := by
  have hv := setBit_relayBit b ⟨pin.toNat - 1, by omega⟩ asserted
  simp only [execToggleRelay, State.withPort_of_port? hP, State.requireConfigured_configured h, pinIndex_of_range hpin,
    hr, hb, need_some, hv]

/-- Settles O27: the refusals in the order of R172, each a case of the command's inversion, and the relay's write. -/
theorem toggleRelayMeaning : Obligations.ToggleRelayMeaning := by
  intro s P pin asserted hP
  refine ⟨fun h => exec_portFailed hP h _, fun h => exec_notConfigured hP h (by simp), fun h hpin => ?_,
    fun h h1 h8 hr => ?_, fun b dev sp h h1 h8 hr hb hd hs => ⟨fun x ha => ?_, fun ha => ?_⟩⟩
  · exact execToggleRelay_next.mpr ⟨P, hP, .inr (.inr ⟨.inr h, .inl ⟨pinIndex_of_not_range hpin,
      (s.setPort_respond_violation (st := .pinOutOfRange) rfl P).symm⟩⟩)⟩
  · exact execToggleRelay_next.mpr ⟨P, hP, .inr (.inr ⟨.inr h, .inr ⟨_, pinIndex_of_range ⟨h1, h8⟩,
      .inl ⟨hr, (s.setPort_respond_violation (st := .unsupportedOnSensor) rfl P).symm⟩⟩⟩)⟩
  · exact (execToggleRelay_relay asserted hP h ⟨h1, h8⟩ hr hb).trans (State.writeGpio_ok _ _ hd hs ha)
  · exact (execToggleRelay_relay asserted hP h ⟨h1, h8⟩ hr hb).trans (State.writeGpio_fail _ _ hd hs ha)

end Sys2Proof.Machine
end

section
/-! The laws of TOGGLE_RELAY on a relay port (R130), from the laws of `setBit`. -/

namespace Sys2Proof.Machine

/-- The fields of the port a transaction was for. -/
theorem State.port?_setPort_record {s : State} {p : Nat} {Q : Port} (h : s.port? p = some Q) (r : BusRecord) (P : Port) :
    ((s.record r).setPort p P).port? p = some P :=
  State.port?_setPort_self ((s.record_port? r p).trans h) P

/-- The bit of a successful toggle's pin, with its one effect: the byte with that bit replaced is written and cached. -/
theorem Toggled.effect {s t : State} {pin : BitVec 4} {a : Bool} {b b' : Byte} (h : Toggled s pin a t b b') :
    ∃ (i : Fin 8) (P : Port) (dev : DeviceAddress) (sp : SubPort), i.val + 1 = pin.toNat ∧ b' = setBit b i (!a) ∧
      s.port? s.active = some P ∧ P.deviceAddress = some dev ∧ P.subPort = some sp ∧
      t = (s.record ⟨s.active, .write, dev, s.cfg.regs.addr .gpio sp, some b', .ok⟩).setPort s.active
        ({ P with currentByte := some b' }.respond .ok 0x00) := by
  obtain ⟨h1, h8, hok, hx, P, P', hP, hph, hr, hb, hP', hb'⟩ := h
  have hv := setBit_relayBit b ⟨pin.toNat - 1, by omega⟩ a
  obtain ⟨dev, sp, hd, hs, ⟨hfail, -⟩ | ⟨-, ht⟩⟩ :=
    State.writeGpio_next.mp ((execToggleRelay_relay a hP hph ⟨h1, h8⟩ hr hb).symm.trans hx)
  · exact absurd (hok.symm.trans hfail) (by simp)
  · rw [← hv] at ht
    have hactive : t.active = s.active := by simp [ht]
    obtain rfl := Option.some.inj (hP'.symm.trans (hactive ▸ ht ▸ State.port?_setPort_record hP _ _))
    obtain rfl := Option.some.inj hb'
    exact ⟨⟨pin.toNat - 1, by omega⟩, P, dev, sp, Nat.sub_add_cancel h1, rfl, hP, hd, hs, ht⟩

/-- The byte of a successful toggle, with the index of its pin given. -/
theorem Toggled.byte {s t : State} {pin : BitVec 4} {a : Bool} {b b' : Byte} {i : Fin 8} (h : Toggled s pin a t b b')
    (hi : i.val + 1 = pin.toNat) : b' = setBit b i (!a) := by
  obtain ⟨j, _, _, _, hj, hb, -⟩ := h.effect
  rwa [show i = j from Fin.ext (by omega)]

/-- Two toggles of one pin to the same level cache one byte and issue one write twice (R130). -/
theorem Toggled.again {s t u : State} {pin : BitVec 4} {a : Bool} {b b' b'' : Byte} (h : Toggled s pin a t b b')
    (h' : Toggled t pin a u b' b'') :
    b'' = b' ∧ ∃ r, t.busTrace = s.busTrace ++ [r] ∧ u.busTrace = t.busTrace ++ [r] := by
  obtain ⟨i, P, dev, sp, hi, hb, hP, hd, hs, ht⟩ := h.effect
  obtain ⟨j, Q, dev', sp', hj, hb', hQ, hd', hs', hu⟩ := h'.effect
  have hsame : b'' = b' := by
    rw [h'.byte hi, hb]
    exact (setBitLaws b i (!a) (!a)).1
  have hactive : t.active = s.active := by simp [ht]
  have hself : t.port? s.active = some _ := ht ▸ State.port?_setPort_record hP _ _
  obtain rfl := Option.some.inj (hself.symm.trans (hactive ▸ hQ))
  obtain rfl := Option.some.inj (hd.symm.trans hd')
  obtain rfl := Option.some.inj (hs.symm.trans hs')
  have hcfg : t.cfg = s.cfg := by simp [ht]
  exact ⟨hsame, _, by simp [ht]; rfl, by simp [hu, hsame, hactive, hcfg]⟩

/-- Settles O28: each law is a law of `setBit` on the pin's bit. -/
theorem toggleRelayLaws : Obligations.ToggleRelayLaws := by
  refine ⟨fun s pin a t b b' h => ?written, fun s pin a t u b b' b'' h h' => h.again h',
    fun s pin t u b b' b'' h h' => ?restored,
    fun s pin pin' a a' t u t' u' b b₁ b₂ b₁' b₂' hne h₁ h₂ h₁' h₂' => ?commute⟩
  case written =>
    obtain ⟨i, -, -, -, hi, rfl, -⟩ := h.effect
    rw [← hi, Nat.add_sub_cancel]
    refine ⟨(setBitLaws b i (!a) a).2.1, fun j hj hne => ?_⟩
    exact (setBitLaws b i (!a) a).2.2.1 ⟨j, hj⟩ fun h => hne (congrArg Fin.val h)
  case restored =>
    obtain ⟨i, -, -, -, hi, hb', -⟩ := h.effect
    obtain ⟨hover, -, -, hid, -⟩ := setBitLaws b i false true
    have hb'' : b'' = setBit b i true := by
      rw [h'.byte hi, hb']
      exact hover
    rw [← hi, Nat.add_sub_cancel, hb'']
    constructor
    · intro hb
      rw [← hb]
      exact (setBitLaws b i true true).2.1
    · intro hb
      rw [← hb]
      exact hid
  case commute =>
    obtain ⟨i, -, -, -, hi, hb₁, -⟩ := h₁.effect
    obtain ⟨j, -, -, -, hj, hb₁', -⟩ := h₁'.effect
    have hij : i ≠ j := fun h => hne (BitVec.eq_of_toNat_eq (by omega))
    obtain ⟨-, -, -, -, hcomm⟩ := setBitLaws b i (!a) (!a')
    rw [h₂.byte hj, h₂'.byte hi, hb₁, hb₁']
    exact hcomm j hij

end Sys2Proof.Machine
end

section
/-! R111: a busy port takes no command, and the words offered to it wait. -/

namespace Sys2Proof.Machine

/-- A port CONSTRUCTING under the invariant is busy (R30). -/
theorem Port.Inv.busy_of_constructing {c : Config} {P : Port} (h : P.Inv c) (hph : P.phase = .constructing) :
    P.cmd ≠ none := by
  obtain ⟨w, _, _, _, _, hw, -⟩ := h.constructing hph
  simp [hw]

/-- A busy port takes no command (R111). -/
theorem State.ready_command_of_busy {s : State} {p : Nat} {P : Port} (hP : s.port? p = some P) (hb : P.cmd ≠ none) :
    s.ready (.command p) = false := by
  refine Bool.eq_false_iff.mpr fun hr => ?_
  obtain ⟨Q, w, hQ, hc, -⟩ := State.ready_command.mp hr
  exact hb (Option.some.inj (hP.symm.trans hQ) ▸ hc)

/-- A busy port runs no tick (R111, R146). -/
theorem State.ready_tick_of_busy {s : State} {p : Nat} {P : Port} (hP : s.port? p = some P) (hb : P.cmd ≠ none) :
    s.ready (.tick p) = false := by
  refine Bool.eq_false_iff.mpr fun hr => ?_
  obtain ⟨Q, hQ, ht⟩ := State.ready_tick.mp hr
  obtain ⟨-, -, hc⟩ := Port.tickEnabled_iff.mp ht
  exact hb (Option.some.inj (hP.symm.trans hQ) ▸ hc)

theorem exec_offers {i : Instr} {s t : State} (h : exec i s = .next t) : t.offers = s.offers := by
  obtain ⟨P, P', -, rfl | ⟨r, -, rfl⟩⟩ := exec_next_shape h
  · rfl
  · simp

theorem constructionStep_offers {p : Nat} {s t : State} (h : constructionStep p s = .next t) : t.offers = s.offers := by
  obtain ⟨P, -, ⟨-, rfl⟩ | ⟨-, w, k, -, -, f, v, dev, sp, -, -, -, ⟨-, rfl⟩ | ⟨-, -, rfl⟩ | ⟨-, -, h⟩⟩⟩ :=
    constructionStep_next.mp h
  · rfl
  · simp
  · simp
  · obtain ⟨-, rfl⟩ | ⟨-, rfl⟩ := State.finishConstruction_next.mp h
    · simp
    · simp

theorem tick_offers {p : Nat} {s t : State} (h : Sys2Proof.Machine.tick p s = .next t) : t.offers = s.offers := by
  obtain ⟨P, -, ⟨-, rfl⟩ | ⟨-, old, dev, sp, -, -, -, ⟨-, rfl⟩ | ⟨b, -, ⟨-, rfl⟩ | ⟨-, rfl⟩⟩⟩⟩ := tick_next.mp h
  · rfl
  · simp
  · simp
  · simp

/-- Only a command step takes a word from the host, and it takes its own port's (R110). -/
theorem perform_offers {a : Move} {s t : State} (h : perform a s = .next t) :
    t.offers = s.offers ∨ a = .command a.port ∧ t.offers = s.offers.eraseP fun o => o.port == a.port := by
  cases a with
  | command p =>
    obtain ⟨P, -, ⟨-, rfl⟩ | ⟨w, -, ⟨_, -, rfl⟩ | ⟨i, -, h⟩⟩⟩ := commandStep_next.mp h
    · exact .inl rfl
    · exact .inr ⟨rfl, rfl⟩
    · exact .inr ⟨rfl, exec_offers h⟩
  | construct p => exact .inl (constructionStep_offers h)
  | tick p => exact .inl (tick_offers h)

/-- The words offered to one port are untouched when another's next word is taken. -/
theorem filter_eraseP_port_of_ne {p q : Nat} (hne : q ≠ p) (l : List Offer) :
    (l.eraseP fun o => o.port == q).filter (fun o => o.port == p) = l.filter fun o => o.port == p := by
  induction l with
  | nil => rfl
  | cons o os ih =>
    by_cases hq : o.port = q
    · simp [hq, hne]
    · simp [hq, List.filter_cons, ih]

/-- A step that is not a command step of port `p` leaves the words offered to it. -/
theorem step_keeps_offers {s t : State} {p : Nat} (hr : s.ready (.command p) = false) (h : step s = .next t) :
    t.offers.filter (fun o => o.port == p) = s.offers.filter fun o => o.port == p := by
  obtain ⟨a, d, -, ha, hstep⟩ | ⟨-, hstep⟩ := step_cases s
  · obtain ho | ⟨hcmd, ho⟩ := perform_offers (hstep.symm.trans h)
    · rw [ho]
    · have hne : a.port ≠ p := fun hp => Bool.false_ne_true (hr.symm.trans (hp ▸ hcmd ▸ ha))
      rw [ho]
      exact filter_eraseP_port_of_ne hne _
  · cases hstep.symm.trans h
    rfl

/-- Settles O16: a command and a tick need an idle port, and no other move takes a word of its offers. -/
theorem busyPortWaits : Obligations.BusyPortWaits := by
  intro s p P hP hbusy
  have hb : P.cmd ≠ none := hbusy.elim id fun ⟨hph, hinv⟩ => hinv.busy_of_constructing hph
  have hr := State.ready_command_of_busy hP hb
  exact ⟨hr, State.ready_tick_of_busy hP hb, fun t => step_keeps_offers hr⟩

end Sys2Proof.Machine
end

section
/-! One construction step (R114 to R116, R119 to R121): what it leaves in the port, for either answer. -/

namespace Sys2Proof.Machine

theorem roleOf_ne_none {code : RoleCode} : roleOf code ≠ none ↔ code = 0b00#2 ∨ code = 0b01#2 := by
  revert code; decide

/-- The port `finish(role)` leaves: CONFIGURED and OK for a recognised role (R121), FAILED and INVALID_ROLE otherwise
(R119). -/
def Port.finished (P : Port) (code : RoleCode) : Port :=
  if roleOf code ≠ none then { P with phase := .configured, seq := none }.answered 0x0000#16
  else { P with phase := .failed, seq := none }.answered 0x1000#16

/-- The port a failed construction write leaves: FAILED with TRANSPORT (R120). -/
def Port.constructionFailed (P : Port) : Port := { P with phase := .failed, seq := none }.answered 0x2000#16

theorem Port.finished_of_role {code : RoleCode} (h : roleOf code ≠ none) (P : Port) :
    P.finished code = { P with phase := .configured, seq := none }.answered 0x0000#16 := if_pos h

theorem Port.finished_of_no_role {code : RoleCode} (h : roleOf code = none) (P : Port) :
    P.finished code = { P with phase := .failed, seq := none }.answered 0x1000#16 := if_neg (not_not_intro h)

@[simp] theorem Port.finished_cmd (P : Port) (code : RoleCode) : (P.finished code).cmd = none := by
  unfold Port.finished
  split_ifs <;> rfl

/-- The end of a construction is a next state. -/
theorem State.finishConstruction_eq (s : State) (p : Nat) (P : Port) (code : RoleCode) :
    s.finishConstruction p P code = .next (s.setPort p (P.finished code)) := by
  by_cases hr : roleOf code = none
  · refine State.finishConstruction_next.mpr (.inr ⟨hr, ?_⟩)
    rw [Port.respond_eq_answered (st := .invalidRole) rfl, Port.finished_of_no_role hr]
    rfl
  · refine State.finishConstruction_next.mpr (.inl ⟨hr, ?_⟩)
    rw [Port.respond_eq_answered (st := .ok) rfl, Port.finished_of_role hr]
    rfl

/-- A construction write of step `k` updates the shadow of its family, then, at step 0, the role, and moves on. -/
theorem Port.afterConstructionWrite_eq (P : Port) (code : RoleCode) (k : Nat) (f : Family) (v : Byte) :
    P.afterConstructionWrite code k f v =
      { (if k ≠ 0 then P.applyWrite f v
         else if code = 0b00#2 then { P.applyWrite f v with role := some .sensorInput, currentByte := some 0xFF }
         else if code = 0b01#2 then { P.applyWrite f v with role := some .relayOutput }
         else P.applyWrite f v) with seq := some (k + 1) } := by
  unfold Port.afterConstructionWrite Port.dispatchRole roleOf
  by_cases hk : k = 0
  · simp only [hk, if_true, ne_eq, not_true_eq_false, if_false]
    split_ifs <;> rfl
  · simp [hk]

/-- The sequencer is enabled in CONSTRUCTING only (R114). -/
theorem Port.sequencerEnabled_phase {c : Config} {P : Port} (h : P.sequencerEnabled c = true) :
    P.phase = .constructing := by
  simp only [Port.sequencerEnabled, Bool.and_eq_true, beq_iff_eq] at h
  exact h.1

/-- The port of a transaction, in the state after it. -/
theorem State.port?_afterBus {s : State} {r : BusRecord} {Q : Port} (h : s.port? r.port = some Q) (P : Port) :
    (s.afterBus r P).port? r.port = some P := by
  rw [← State.setPort_record]
  exact State.port?_setPort_record h r P

/-- What the arbiter has yet to do is no part of a transaction's effect. -/
theorem State.afterBus_withPlan (s : State) (plan : List Move) (r : BusRecord) (P : Port) :
    State.afterBus { s with plan := plan } r P = { s.afterBus r P with plan := plan } := by
  cases h : s.answers <;> simp [State.dropAnswer, h]

section
variable {s : State} {p : Nat} {P : Port} {w : Word} {k : Nat} {f : Family} {v : Byte} {dev : DeviceAddress}
  {sp : SubPort}

/-- A construction step whose write fails (R120). -/
theorem perform_construct_fail (hP : s.port? p = some P) (hph : P.phase = .constructing) (hk : P.seq = some k)
    (hw : P.cmd = some w) (hg : (prog s.cfg (roleField w))[k]? = some (f, v)) (hd : P.deviceAddress = some dev)
    (hs : P.subPort = some sp) (ha : s.nextAnswer = .fail) :
    perform (.construct p) s =
      .next (s.afterBus ⟨p, .write, dev, s.cfg.regs.addr f sp, some v, .fail⟩ P.constructionFailed) :=
  constructionStep_next.mpr ⟨P, hP, .inr ⟨Port.sequencerEnabled_of_row hph hw hk hg, w, k, hw, hk, f, v, dev, sp, hg, hd,
    hs, .inl ⟨busOutcome_eq_fail.mpr ha, (State.setPort_record_respond (st := .transport) rfl s _ _ 0x00).symm⟩⟩⟩

/-- A construction step whose write succeeds: the next step's turn, or the end after the last one (R114). -/
theorem perform_construct_ok (hP : s.port? p = some P) (hph : P.phase = .constructing) (hk : P.seq = some k)
    (hw : P.cmd = some w) (hg : (prog s.cfg (roleField w))[k]? = some (f, v)) (hd : P.deviceAddress = some dev)
    (hs : P.subPort = some sp) {b : Byte} (ha : s.nextAnswer = .ok b) :
    perform (.construct p) s = .next (s.afterBus ⟨p, .write, dev, s.cfg.regs.addr f sp, some v, .ok⟩
      (if k + 1 ≠ (prog s.cfg (roleField w)).length then P.afterConstructionWrite (roleField w) k f v
       else (P.afterConstructionWrite (roleField w) k f v).finished (roleField w))) := by
  refine constructionStep_next.mpr ⟨P, hP, .inr ⟨Port.sequencerEnabled_of_row hph hw hk hg, w, k, hw, hk, f, v, dev, sp,
    hg, hd, hs, ?_⟩⟩
  have ho : busOutcome s.nextAnswer = .ok := busOutcome_eq_ok.mpr ⟨b, ha⟩
  split_ifs with hl
  · exact .inr (.inl ⟨ho, hl, (s.setPort_record _ _).symm⟩)
  · refine .inr (.inr ⟨ho, not_not.mp hl, ?_⟩)
    rw [State.finishConstruction_eq, ← State.setPort_record]

end

/-- Settles O20: the programs by evaluation; a step by its two answers, with the shadow, the role and the end of R114. -/
theorem constructionStepMeaning : Obligations.ConstructionStepMeaning := by
  refine ⟨fun c => ⟨rfl, rfl, ?programs⟩, fun s p P w k f v dev sp hP hph hk hw hg hd hs =>
    ⟨fun ha => perform_construct_fail hP hph hk hw hg hd hs ha, fun b ha => ?ok⟩⟩
  case programs => rintro code (rfl | rfl) <;> rfl
  case ok =>
    rw [perform_construct_ok hP hph hk hw hg hd hs ha, Port.afterConstructionWrite_eq]
    simp only [Port.finished, roleOf_ne_none]
    rfl

/-- Settles O24: the failed write leaves the port FAILED, where no construction step is enabled. -/
theorem constructionTransportFailure : Obligations.ConstructionTransportFailure := by
  intro s p P w k f v dev sp rest hpl hP hph hk hw hg hd hs ha
  have hr : s.ready (.construct p) = true :=
    State.ready_construct.mpr ⟨P, hP, Port.sequencerEnabled_of_row hph hw hk hg⟩
  refine ⟨_, (step_plan hpl hr).trans (perform_construct_fail hP hph hk hw hg hd hs ha), ?_,
    s.afterBus_withPlan rest _ _⟩
  refine Bool.eq_false_iff.mpr fun hready => ?_
  obtain ⟨Q, hQ, hen⟩ := State.ready_construct.mp hready
  obtain rfl := Option.some.inj ((State.port?_afterBus (r := ⟨p, _, _, _, _, _⟩) hP _).symm.trans hQ)
  exact absurd (Port.sequencerEnabled_phase hen) (by simp [Port.constructionFailed])

end Sys2Proof.Machine
end

section
/-! Construction from the offered word to the answer (R117 to R119, R67): the accepted CONSTRUCT, the run of its rows under
a scripted schedule, and what any schedule makes of it. -/

namespace Sys2Proof

/-- A CONSTRUCT word decodes to its command (R83, R90). -/
theorem decode_encode_construct (dev : DeviceAddress) (sp : SubPort) (code : RoleCode) :
    decode (encode (.construct dev sp code)) = .command (.construct dev sp code) := by
  obtain ⟨hrole, hsp, hdev⟩ := encode_construct_fields dev sp code
  have hop : (encode (.construct dev sp code)).extractLsb' 28 4 = 0x1#4 := encode_opcode _
  have hzero := encode_reserved (.construct dev sp code)
  simp only [Instr.operandWidth, Nat.reduceSub] at hzero
  unfold decode
  dsimp only
  rw [if_pos hop, hzero, hrole, hsp, hdev, subPortOfBit_toBit]
  rfl

end Sys2Proof

namespace Sys2Proof.Machine

/-! ### Acceptance -/

/-- A command step that executes a decoded word (R110). -/
theorem perform_command {s : State} {p : Nat} {P : Port} {w : Word} {i : Instr} (hP : s.port? p = some P)
    (ho : s.offered p = some w) (hd : decode w = .command i) : perform (.command p) s = exec i (s.accept p P w) := by
  have h := commandStep_eq hP ho
  rw [hd] at h
  exact h

/-- The fields of port `P` once it has accepted CONSTRUCT, construction step 0 next (R112). -/
def Port.begun (P : Port) (dev : DeviceAddress) (sp : SubPort) (code : RoleCode) : Port :=
  { P with cmd := some (encode (.construct dev sp code)) }.accepted dev sp

/-- The fields of port `P` once its construction has failed, answered with `word`, before a role was known (R119,
R120). -/
def Port.failedWith (P : Port) (dev : DeviceAddress) (sp : SubPort) (word : ResponseWord) : Port :=
  { P with deviceAddress := some dev, subPort := some sp, phase := .failed, seq := none }.answered word

/-- `s` with port `p`'s next word taken and the port's fields now `P`: no transaction was issued. -/
abbrev State.accepted (s : State) (p : Nat) (P : Port) : State :=
  { s with active := p, offers := s.offers.eraseP (fun o => o.port == p), ports := s.ports.set p P }

section
variable {s : State} {p : Nat} {P : Port} {dev : DeviceAddress} {sp : SubPort} {code : RoleCode}

/-- A command step that accepts CONSTRUCT (R112). -/
theorem perform_construct_accepted (hP : s.port? p = some P) (hph : P.phase = .unconfigured)
    (ho : s.offered p = some (encode (.construct dev sp code))) (hl : (prog s.cfg code).length ≠ 0) :
    perform (.command p) s = .next (s.accepted p (P.begun dev sp code)) := by
  obtain ⟨-, -, haccept, -⟩ := constructMeaning _ _ dev sp code (State.port?_accept hP _)
  rw [perform_command hP ho (decode_encode_construct dev sp code), haccept hph hl]
  simp [State.accept, Port.begun, Port.accepted]

/-- A command step that accepts CONSTRUCT with an empty program (R112, R119). -/
theorem perform_construct_empty (hP : s.port? p = some P) (hph : P.phase = .unconfigured)
    (ho : s.offered p = some (encode (.construct dev sp code))) (hl : (prog s.cfg code).length = 0) :
    perform (.command p) s = .next (s.accepted p (P.failedWith dev sp 0x1000#16)) := by
  obtain ⟨-, -, -, hempty⟩ := constructMeaning _ _ dev sp code (State.port?_accept hP _)
  rw [perform_command hP ho (decode_encode_construct dev sp code), hempty hph hl]
  simp [State.accept, Port.failedWith]

end

/-! ### The rows of a program -/

/-- The record of the write of a program's row with its outcome (R113, R114). -/
def rowWrite (c : Config) (p : Nat) (dev : DeviceAddress) (sp : SubPort) (o : BusOutcome) (row : Family × Byte) :
    BusRecord :=
  ⟨p, .write, dev, c.regs.addr row.1 sp, some row.2, o⟩

/-- The fields of port `P` after successful writes of the program rows `rows`, the first of them row `k`. -/
def Port.afterRows (code : RoleCode) : Nat → List (Family × Byte) → Port → Port
  | _, [], P => P
  | k, (f, v) :: rows, P => Port.afterRows code (k + 1) rows (P.afterConstructionWrite code k f v)

/-- Instance `p` of `s` has the fields `P` and is at row `k` of the construction the word `w` asked for. -/
structure State.Sequencing (s : State) (p : Nat) (P : Port) (w : Word) (dev : DeviceAddress) (sp : SubPort) (k : Nat) :
    Prop where
  holds : s.port? p = some P
  phase : P.phase = .constructing
  seq : P.seq = some k
  cmd : P.cmd = some w
  deviceAddress : P.deviceAddress = some dev
  subPort : P.subPort = some sp

section
variable {s t : State} {p : Nat} {P : Port} {w : Word} {dev : DeviceAddress} {sp : SubPort} {k : Nat} {f : Family}
  {v : Byte}

/-- An accepted CONSTRUCT is at row 0. -/
theorem State.Sequencing.begun {code : RoleCode} (h : s.port? p = some (P.begun dev sp code)) :
    s.Sequencing p (P.begun dev sp code) (encode (.construct dev sp code)) dev sp 0 :=
  ⟨h, rfl, rfl, rfl, rfl, rfl⟩

theorem State.Sequencing.busy (h : s.Sequencing p P w dev sp k) : P.cmd ≠ none := by simp [h.cmd]

/-- A row's write moves its port on to the next row. -/
theorem State.Sequencing.next (h : s.Sequencing p P w dev sp k) (code : RoleCode) (f : Family) (v : Byte)
    (ht : t.port? p = some (P.afterConstructionWrite code k f v)) :
    t.Sequencing p (P.afterConstructionWrite code k f v) w dev sp (k + 1) := by
  constructor
  case holds => exact ht
  all_goals simp [h.phase, h.cmd, h.deviceAddress, h.subPort]

/-- A program's row `k` is the head of what is left of it. -/
theorem drop_eq_row_cons {rows : List (Family × Byte)} (hg : rows[k]? = some (f, v)) :
    rows.drop k = (f, v) :: rows.drop (k + 1) := by
  obtain ⟨hlt, hrow⟩ := List.getElem?_eq_some_iff.mp hg
  rw [List.drop_eq_getElem_cons hlt, hrow]

/-- Nothing is left after row `k` exactly when it is the last one. -/
theorem drop_succ_eq_nil_iff {rows : List (Family × Byte)} (hg : rows[k]? = some (f, v)) :
    rows.drop (k + 1) = [] ↔ k + 1 = rows.length := by
  have hlt := (List.getElem?_eq_some_iff.mp hg).1
  rw [List.drop_eq_nil_iff]
  omega

/-! ### Under a scripted schedule -/

/-- A scripted success is a transaction's answer, and the rest of the script is left. -/
theorem State.afterBus_of_script {a : Answer} {answers : List Answer} (ha : s.answers = a :: answers) (r : BusRecord) :
    s.afterBus r P = { s with
      answers := answers, busTrace := s.busTrace ++ [r], ports := s.ports.set r.port P } := by
  simp [State.dropAnswer, ha]

theorem State.Sequencing.ready (h : s.Sequencing p P w dev sp k)
    (hg : (prog s.cfg (roleField w))[k]? = some (f, v)) : s.ready (.construct p) = true :=
  State.ready_construct.mpr ⟨P, h.holds, Port.sequencerEnabled_of_row h.phase h.cmd h.seq hg⟩

/-- A planned construction step with a scripted success. -/
theorem step_construct_ok {b : Byte} {plan : List Move} {answers : List Answer} (h : s.Sequencing p P w dev sp k)
    (hg : (prog s.cfg (roleField w))[k]? = some (f, v)) (hT : s.TransportReady) (hpl : s.plan = .construct p :: plan)
    (ha : s.answers = .ok b :: answers) :
    step s = .next { s with
      plan := plan, answers := answers, busTrace := s.busTrace ++ [rowWrite s.cfg p dev sp .ok (f, v)],
      ports := s.ports.set p
        (if k + 1 ≠ (prog s.cfg (roleField w)).length then P.afterConstructionWrite (roleField w) k f v
         else (P.afterConstructionWrite (roleField w) k f v).finished (roleField w)) } := by
  have hx := perform_construct_ok (s := { s with plan := plan }) h.holds h.phase h.seq h.cmd hg h.deviceAddress h.subPort
    (State.nextAnswer_of_script hT ha)
  rw [step_plan hpl (h.ready hg), hx]
  exact congrArg _ (State.afterBus_of_script (s := { s with plan := plan }) ha _)

/-- A planned construction step with a scripted failure. -/
theorem step_construct_fail {plan : List Move} {answers : List Answer} (h : s.Sequencing p P w dev sp k)
    (hg : (prog s.cfg (roleField w))[k]? = some (f, v)) (hpl : s.plan = .construct p :: plan)
    (ha : s.answers = .fail :: answers) :
    step s = .next { s with
      plan := plan, answers := answers, busTrace := s.busTrace ++ [rowWrite s.cfg p dev sp .fail (f, v)],
      ports := s.ports.set p P.constructionFailed } := by
  have hfail : State.nextAnswer { s with plan := plan } = .fail := by
    simp [State.nextAnswer, State.oracleChoice, ha]
  have hx := perform_construct_fail (s := { s with plan := plan }) h.holds h.phase h.seq h.cmd hg h.deviceAddress
    h.subPort hfail
  rw [step_plan hpl (h.ready hg), hx]
  exact congrArg _ (State.afterBus_of_script (s := { s with plan := plan }) ha _)

end

/-- The rest of a construction under a plan that lets nothing else go and a script in which every write succeeds. -/
theorem run_rows {p : Nat} {w : Word} {dev : DeviceAddress} {sp : SubPort} {plan : List Move} {answers : List Answer}
    (rows : List (Family × Byte)) {s : State} {P : Port} {k : Nat} {bs : List Byte} (h : s.Sequencing p P w dev sp k)
    (hrows : (prog s.cfg (roleField w)).drop k = rows) (hne : rows ≠ []) (hT : s.TransportReady)
    (hpl : s.plan = rows.map (fun _ => .construct p) ++ plan) (ha : s.answers = bs.map .ok ++ answers)
    (hlen : bs.length = rows.length) :
    Host.Core.run Sys2Proof.core rows.length s = .next { s with
      plan := plan, answers := answers, busTrace := s.busTrace ++ rows.map (rowWrite s.cfg p dev sp .ok),
      ports := s.ports.set p ((P.afterRows (roleField w) k rows).finished (roleField w)) } := by
  induction rows generalizing s P k bs with
  | nil => exact absurd rfl hne
  | cons row rest ih =>
    obtain ⟨f, v⟩ := row
    obtain ⟨b, bs, rfl⟩ := List.exists_cons_of_length_eq_add_one hlen
    have hg : (prog s.cfg (roleField w))[k]? = some (f, v) := by
      rw [← List.head?_drop, hrows, List.head?_cons]
    have hrest : (prog s.cfg (roleField w)).drop (k + 1) = rest := by
      rw [← List.tail_drop, hrows, List.tail_cons]
    have hlast := drop_succ_eq_nil_iff hg
    rw [hrest] at hlast
    have hstep := step_construct_ok h hg hT hpl ha
    rw [List.length_cons, run_succ_of_next hstep]
    cases rest with
    | nil =>
      rw [if_neg (not_not_intro (hlast.mp rfl))]
      obtain rfl := List.length_eq_zero_iff.mp (Nat.succ.inj hlen)
      rfl
    | cons row' rest =>
      rw [if_pos (fun hl => List.cons_ne_nil _ _ (hlast.mpr hl))]
      refine Eq.trans (ih (h.next (roleField w) f v ?holds) hrest (List.cons_ne_nil _ _) hT rfl rfl
        (Nat.succ.inj hlen)) ?_
      case holds => exact State.port?_setPort_self h.holds _
      simp [Port.afterRows]

/-- A whole construction under a plan that lets nothing else go and a script in which every write succeeds, for a role
whose program is not empty. -/
theorem run_construction {s : State} {p : Nat} {P : Port} {dev : DeviceAddress} {sp : SubPort} {code : RoleCode}
    {rows : List (Family × Byte)} {plan : List Move} {answers : List Answer} (bs : List Byte)
    (hrows : prog s.cfg code = rows) (hl : rows.length ≠ 0) (hP : s.port? p = some P) (hph : P.phase = .unconfigured)
    (hc : P.cmd = none) (hT : s.TransportReady) (ho : s.offered p = some (encode (.construct dev sp code)))
    (hpl : s.plan = .command p :: (rows.map (fun _ => .construct p) ++ plan))
    (ha : s.answers = bs.map .ok ++ answers) (hlen : bs.length = rows.length) :
    Host.Core.run Sys2Proof.core (rows.length + 1) s = .next { s with
      plan := plan, answers := answers, active := p, offers := s.offers.eraseP (fun o => o.port == p),
      busTrace := s.busTrace ++ rows.map (rowWrite s.cfg p dev sp .ok),
      ports := s.ports.set p (((P.begun dev sp code).afterRows code 0 rows).finished code) } := by
  have hstep := (step_plan hpl (State.ready_command.mpr ⟨P, _, hP, hc, ho⟩)).trans
    (perform_construct_accepted (s := { s with plan := _ }) hP hph ho (hrows ▸ hl))
  rw [run_succ_of_next hstep]
  have hcode := roleField_encode_construct dev sp code
  refine Eq.trans (run_rows rows (.begun (P := P) ?holds) (by rw [hcode]; exact hrows)
    (fun h => hl (congrArg List.length h)) hT rfl ha hlen) ?_
  case holds => exact State.port?_setPort_self hP _
  simp [hcode]

/-! ### Under any schedule -/

/-- What a step does to the parameters, the ports and the bus trace: nothing, or the effect of a ready move. -/
theorem step_effect {s t : State} (h : step s = .next t) :
    t = s ∨ ∃ a ans P P' r e, s.ready a = true ∧ s.port? a.port = some P ∧
      StepEffect s.cfg ans (s.offered a.port) a P P' r e ∧ t.cfg = s.cfg ∧ t.ports = s.ports.set a.port P' ∧
      t.busTrace = s.busTrace ++ r.toList := by
  obtain ⟨a, d, -, hr, hstep⟩ | ⟨-, hstep⟩ := step_cases s
  · obtain ⟨P, P', r, e, hP, he, ha⟩ := perform_effect_of_ready (s := { s with plan := s.plan.tail, draws := d })
      ((State.ready_congr rfl rfl rfl a).trans hr) (hstep.symm.trans h)
    exact .inr ⟨a, _, P, P', r, e, hr, hP, he, ha.cfg, ha.ports, ha.busTrace⟩
  · exact .inl (Host.Outcome.next.inj (hstep.symm.trans h)).symm

theorem step_cfg {s t : State} (h : step s = .next t) : t.cfg = s.cfg := by
  obtain rfl | ⟨a, ans, P, P', r, e, -, -, -, hcfg, -, -⟩ := step_effect h
  · rfl
  · exact hcfg

/-- No step removes a bus record (R66). -/
theorem step_busTrace_prefix {s t : State} (h : step s = .next t) : s.busTrace <+: t.busTrace := by
  obtain rfl | ⟨a, ans, P, P', r, e, -, -, -, -, -, htrace⟩ := step_effect h
  · exact List.prefix_rfl
  · exact ⟨_, htrace.symm⟩

/-- A run that answers a next state begins with a step that does. -/
theorem run_succ_next {n : Nat} {s t : State} :
    Host.Core.run Sys2Proof.core (n + 1) s = .next t ↔
      ∃ u, step s = .next u ∧ Host.Core.run Sys2Proof.core n u = .next t := by
  constructor
  · intro h
    cases hx : step s with
    | next u => exact ⟨u, rfl, (run_succ_of_next hx).symm.trans h⟩
    | fault r =>
      have hx' : Sys2Proof.core.step s = .fault r := hx
      simp [Host.Core.run, hx'] at h
    | refused r =>
      have hx' : Sys2Proof.core.step s = .refused r := hx
      simp [Host.Core.run, hx'] at h
  · rintro ⟨u, hx, h⟩
    exact (run_succ_of_next hx).trans h

/-- No run removes a bus record (R66). -/
theorem run_busTrace_prefix {n : Nat} {s t : State} (h : Host.Core.run Sys2Proof.core n s = .next t) :
    s.busTrace <+: t.busTrace := by
  induction n generalizing s with
  | zero => cases h; exact List.prefix_rfl
  | succ n ih =>
    obtain ⟨u, hx, hu⟩ := run_succ_next.mp h
    exact (step_busTrace_prefix hx).trans (ih hu)

theorem CommandEffect.record_port {c : Config} {ans : Answer} {p : Nat} {i : Instr} {P P' : Port} {r : BusRecord}
    (h : CommandEffect c ans p i P P' (some r)) : r.port = p := by
  cases h <;> rfl

/-- A move's transaction is its own port's (R58). -/
theorem StepEffect.record_port {c : Config} {ans : Answer} {offer : Option Word} {a : Move} {P P' : Port} {r : BusRecord}
    {e : Events} (h : StepEffect c ans offer a P P' (some r) e) : r.port = a.port := by
  cases h
  case command h => exact h.record_port
  all_goals rfl

/-- What a step does to one port's fields and its own transactions: nothing, or the effect of its own ready move. -/
theorem step_own {s t : State} {p : Nat} {P : Port} (h : step s = .next t) (hP : s.port? p = some P) :
    (t.port? p = some P ∧ t.ownTrace p = s.ownTrace p) ∨
      ∃ a ans P' r e, a.port = p ∧ s.ready a = true ∧ StepEffect s.cfg ans (s.offered p) a P P' r e ∧
        t.port? p = some P' ∧ t.ownTrace p = s.ownTrace p ++ r.toList := by
  obtain rfl | ⟨a, ans, Q, P', r, e, hr, hQ, he, -, hports, htrace⟩ := step_effect h
  · exact .inl ⟨hP, rfl⟩
  have hown : t.ownTrace p = s.ownTrace p ++ r.toList.filter fun r => r.port == p := by
    simp only [State.ownTrace, htrace, List.filter_append]
  by_cases hp : a.port = p
  · subst hp
    obtain rfl := Option.some.inj (hP.symm.trans hQ)
    have hport : t.port? a.port = some P' :=
      (congrArg (·[a.port]?) hports).trans (State.port?_setPort_self hP P')
    refine .inr ⟨a, ans, P', r, e, rfl, hr, he, hport, ?_⟩
    cases r with
    | none => exact hown
    | some r => simpa [he.record_port] using hown
  · have hport : t.port? p = s.port? p :=
      (congrArg (·[p]?) hports).trans (State.port?_setPort_of_ne (Ne.symm hp) s P')
    refine .inl ⟨hport.trans hP, ?_⟩
    cases r with
    | none => simpa using hown
    | some r => simpa [he.record_port, hp] using hown

/-- A construction step of a port at row `k` is the write of that row, which fails, lets the next row follow, or ends
the construction. -/
theorem StepEffect.construct_row {c : Config} {ans : Answer} {offer : Option Word} {p : Nat} {P P' : Port}
    {r : Option BusRecord} {e : Events} {w : Word} {k : Nat} {dev : DeviceAddress} {sp : SubPort}
    (h : StepEffect c ans offer (.construct p) P P' r e) (hw : P.cmd = some w) (hk : P.seq = some k)
    (hd : P.deviceAddress = some dev) (hs : P.subPort = some sp) :
    ∃ f v, (prog c (roleField w))[k]? = some (f, v) ∧
      ((r = some (rowWrite c p dev sp .fail (f, v)) ∧ P' = P.constructionFailed) ∨
        (r = some (rowWrite c p dev sp .ok (f, v)) ∧
          P' = if k + 1 ≠ (prog c (roleField w)).length then P.afterConstructionWrite (roleField w) k f v
            else (P.afterConstructionWrite (roleField w) k f v).finished (roleField w))) := by
  have same : ∀ {w' k' dev' sp'}, P.cmd = some w' → P.seq = some k' → P.deviceAddress = some dev' →
      P.subPort = some sp' → w' = w ∧ k' = k ∧ dev' = dev ∧ sp' = sp := fun hw' hk' hd' hs' =>
    ⟨Option.some.inj (hw'.symm.trans hw), Option.some.inj (hk'.symm.trans hk), Option.some.inj (hd'.symm.trans hd),
      Option.some.inj (hs'.symm.trans hs)⟩
  cases h with
  | constructFailed _ _ w' k' f v dev' sp' hph hw' hk' hg hd' hs' ha =>
    obtain ⟨rfl, rfl, rfl, rfl⟩ := same hw' hk' hd' hs'
    exact ⟨f, v, hg, .inl ⟨rfl, Port.respond_eq_answered (st := .transport) rfl _ _⟩⟩
  | constructGoesOn _ _ w' k' f v dev' sp' hph hw' hk' hg hd' hs' ha hl =>
    obtain ⟨rfl, rfl, rfl, rfl⟩ := same hw' hk' hd' hs'
    exact ⟨f, v, hg, .inr ⟨rfl, (if_pos hl).symm⟩⟩
  | constructed _ _ w' k' f v dev' sp' hph hw' hk' hg hd' hs' ha hl hr =>
    obtain ⟨rfl, rfl, rfl, rfl⟩ := same hw' hk' hd' hs'
    refine ⟨f, v, hg, .inr ⟨rfl, ?_⟩⟩
    rw [if_neg (not_not_intro hl), Port.finished_of_role hr, Port.respond_eq_answered (st := .ok) rfl]
    rfl
  | unrecognised _ _ w' k' f v dev' sp' hph hw' hk' hg hd' hs' ha hl hr =>
    obtain ⟨rfl, rfl, rfl, rfl⟩ := same hw' hk' hd' hs'
    refine ⟨f, v, hg, .inr ⟨rfl, ?_⟩⟩
    rw [if_neg (not_not_intro hl), Port.finished_of_no_role hr, Port.respond_eq_answered (st := .invalidRole) rfl]
    rfl

/-- What a step does to a port whose construction is at row `k`: nothing, or that row's construction step. -/
theorem State.Sequencing.step {s t : State} {p : Nat} {P : Port} {w : Word} {dev : DeviceAddress} {sp : SubPort} {k : Nat}
    (h : s.Sequencing p P w dev sp k) (hx : Sys2Proof.Machine.step s = .next t) :
    (t.port? p = some P ∧ t.ownTrace p = s.ownTrace p) ∨
    ∃ f v, (prog s.cfg (roleField w))[k]? = some (f, v) ∧
      ((t.ownTrace p = s.ownTrace p ++ [rowWrite s.cfg p dev sp .fail (f, v)] ∧ t.port? p = some P.constructionFailed) ∨
        (t.ownTrace p = s.ownTrace p ++ [rowWrite s.cfg p dev sp .ok (f, v)] ∧
          t.port? p = some (if k + 1 ≠ (prog s.cfg (roleField w)).length then P.afterConstructionWrite (roleField w) k f v
            else (P.afterConstructionWrite (roleField w) k f v).finished (roleField w)))) := by
  obtain hsame | ⟨a, ans, P', r, e, hp, hr, he, hport, htrace⟩ := step_own hx h.holds
  · exact .inl hsame
  cases a with
  | command q =>
    obtain rfl : q = p := hp
    exact absurd (hr.symm.trans (State.ready_command_of_busy h.holds h.busy)) (by simp)
  | tick q =>
    obtain rfl : q = p := hp
    exact absurd (hr.symm.trans (State.ready_tick_of_busy h.holds h.busy)) (by simp)
  | construct q =>
    obtain rfl : q = p := hp
    obtain ⟨f, v, hg, ⟨rfl, rfl⟩ | ⟨rfl, rfl⟩⟩ := he.construct_row h.cmd h.seq h.deviceAddress h.subPort
    · exact .inr ⟨f, v, hg, .inl ⟨htrace, hport⟩⟩
    · exact .inr ⟨f, v, hg, .inr ⟨htrace, hport⟩⟩

/-- `t`, after `n + 1` steps from `s`, is the first state in which port `p` is idle, with the fields `P'`. -/
structure FirstIdle (s t : State) (n p : Nat) (P' : Port) : Prop where
  run : Host.Core.run Sys2Proof.core (n + 1) s = .next t
  holds : t.port? p = some P'
  idle : P'.cmd = none
  busyBefore : ∀ j u Q, 1 ≤ j → j ≤ n → Host.Core.run Sys2Proof.core j s = .next u → u.port? p = some Q → Q.cmd ≠ none

/-- The first step makes the port idle, or it is busy and the wait goes on. -/
theorem FirstIdle.step {s t u : State} {n p : Nat} {P' Q : Port} (h : FirstIdle s t n p P')
    (hx : Sys2Proof.Machine.step s = .next u) (hQ : u.port? p = some Q) :
    (n = 0 ∧ t = u ∧ P' = Q) ∨ (Q.cmd ≠ none ∧ ∃ m, n = m + 1 ∧ FirstIdle u t m p P') := by
  have hrun : Host.Core.run Sys2Proof.core n u = .next t := (run_succ_of_next hx).symm.trans h.run
  cases n with
  | zero =>
    obtain rfl : u = t := Host.Outcome.next.inj hrun
    exact .inl ⟨rfl, rfl, Option.some.inj (h.holds.symm.trans hQ)⟩
  | succ m =>
    refine .inr ⟨h.busyBefore 1 u Q le_rfl (by omega) (run_succ_next.mpr ⟨u, hx, rfl⟩) hQ, m, rfl, hrun, h.holds, h.idle,
      fun j v R h1 hj hv => ?_⟩
    exact h.busyBefore (j + 1) v R (by omega) (by omega) ((run_succ_of_next hx).trans hv)

/-- How a construction that is at row `k` in `u` ends in `t`: at a row whose write fails, with the rows before it written,
or with all its rows written. -/
def ConstructionOutcome (u t : State) (p : Nat) (P P' : Port) (code : RoleCode) (dev : DeviceAddress) (sp : SubPort)
    (k : Nat) : Prop :=
  (∃ done row rest, (prog u.cfg code).drop k = done ++ row :: rest ∧
      t.ownTrace p = u.ownTrace p ++ (done.map (rowWrite u.cfg p dev sp .ok) ++ [rowWrite u.cfg p dev sp .fail row]) ∧
      P' = (P.afterRows code k done).constructionFailed) ∨
    (t.ownTrace p = u.ownTrace p ++ ((prog u.cfg code).drop k).map (rowWrite u.cfg p dev sp .ok) ∧
      P' = (P.afterRows code k ((prog u.cfg code).drop k)).finished code)

/-- A step of other ports leaves the outcome as it was. -/
theorem ConstructionOutcome.of_unchanged {s u t : State} {p : Nat} {P P' : Port} {code : RoleCode} {dev : DeviceAddress}
    {sp : SubPort} {k : Nat} (h : ConstructionOutcome u t p P P' code dev sp k) (hcfg : u.cfg = s.cfg)
    (htrace : u.ownTrace p = s.ownTrace p) : ConstructionOutcome s t p P P' code dev sp k := by
  rwa [ConstructionOutcome, hcfg, htrace] at h

/-- A successful write of row `k` goes before what the later rows do. -/
theorem ConstructionOutcome.of_row {s u t : State} {p : Nat} {P P' : Port} {code : RoleCode} {dev : DeviceAddress}
    {sp : SubPort} {k : Nat} {f : Family} {v : Byte}
    (h : ConstructionOutcome u t p (P.afterConstructionWrite code k f v) P' code dev sp (k + 1)) (hcfg : u.cfg = s.cfg)
    (hg : (prog s.cfg code)[k]? = some (f, v))
    (htrace : u.ownTrace p = s.ownTrace p ++ [rowWrite s.cfg p dev sp .ok (f, v)]) :
    ConstructionOutcome s t p P P' code dev sp k := by
  rw [ConstructionOutcome, hcfg, htrace] at h
  rw [ConstructionOutcome, drop_eq_row_cons hg]
  obtain ⟨done, row, rest, hrows, ht, hP'⟩ | ⟨ht, hP'⟩ := h
  · exact .inl ⟨(f, v) :: done, row, rest, by rw [hrows, List.cons_append], by simpa using ht, hP'⟩
  · exact .inr ⟨by simpa using ht, hP'⟩

/-- Under any schedule a construction that is answered ends at a row whose write fails or after its last row (R67). -/
theorem State.Sequencing.outcome {s t : State} {n p : Nat} {P P' : Port} {w : Word} {dev : DeviceAddress} {sp : SubPort}
    {k : Nat} (h : s.Sequencing p P w dev sp k) (hend : FirstIdle s t n p P') :
    ConstructionOutcome s t p P P' (roleField w) dev sp k := by
  induction n using Nat.strong_induction_on generalizing s P k with
  | _ n ih =>
    obtain ⟨u, hx, -⟩ := run_succ_next.mp hend.run
    have hcfg := step_cfg hx
    obtain ⟨hport, htrace⟩ | ⟨f, v, hg, ⟨htrace, hport⟩ | ⟨htrace, hport⟩⟩ := h.step hx
    · obtain ⟨-, -, rfl⟩ | ⟨-, m, rfl, hend'⟩ := hend.step hx hport
      · exact absurd hend.idle h.busy
      · have hu : u.Sequencing p P w dev sp k := ⟨hport, h.phase, h.seq, h.cmd, h.deviceAddress, h.subPort⟩
        exact (ih m (by omega) hu hend').of_unchanged hcfg htrace
    · obtain ⟨-, rfl, rfl⟩ | ⟨hbusy, -⟩ := hend.step hx hport
      · exact .inl ⟨[], (f, v), _, drop_eq_row_cons hg, htrace, rfl⟩
      · exact absurd rfl hbusy
    · have hlast := drop_succ_eq_nil_iff hg
      split_ifs at hport with hl
      · obtain ⟨-, -, rfl⟩ | ⟨-, m, rfl, hend'⟩ := hend.step hx hport
        · exact absurd hend.idle (h.next (roleField w) f v hport).busy
        · exact (ih m (by omega) (h.next (roleField w) f v hport) hend').of_row hcfg hg htrace
      · obtain ⟨-, rfl, rfl⟩ | ⟨hbusy, -⟩ := hend.step hx hport
        · refine .inr ?_
          rw [drop_eq_row_cons hg, hlast.mpr (not_not.mp hl)]
          exact ⟨htrace, rfl⟩
        · exact absurd (Port.finished_cmd _ _) hbusy

/-- The arbiter's choice is the move of the step. -/
theorem step_of_chosen {s : State} {a : Move} (h : s.chosen = some a) :
    ∃ d, step s = perform a { s with plan := s.plan.tail, draws := d } := by
  obtain ⟨b, d, hb, -, hstep⟩ | ⟨hn, -⟩ := step_cases s
  · obtain rfl : b = a := by simpa [State.chosen, hb] using h
    exact ⟨d, hstep⟩
  · simp [State.chosen, hn] at h

theorem ConstructedBetween.firstIdle {s t : State} {n p : Nat} {P P' : Port} {dev : DeviceAddress} {sp : SubPort}
    {code : RoleCode} (h : ConstructedBetween s t n p P P' dev sp code) : FirstIdle s t n p P' := by
  obtain ⟨-, -, -, -, -, hrun, ht, hc, hbusy⟩ := h
  exact ⟨hrun, ht, hc, hbusy⟩

/-- From the offered word to the answer under any schedule, for a role whose program is not empty. -/
theorem ConstructedBetween.outcome {s t : State} {n p : Nat} {P P' : Port} {dev : DeviceAddress} {sp : SubPort}
    {code : RoleCode} (h : ConstructedBetween s t n p P P' dev sp code) (hl : (prog s.cfg code).length ≠ 0) :
    ConstructionOutcome s t p (P.begun dev sp code) P' code dev sp 0 := by
  have hend := h.firstIdle
  obtain ⟨hP, hph, hc, ho, hchosen, -⟩ := h
  obtain ⟨d, hstep⟩ := step_of_chosen hchosen
  have hx := hstep.trans (perform_construct_accepted (s := { s with plan := s.plan.tail, draws := d }) hP hph ho hl)
  have hport := State.port?_setPort_self hP (P.begun dev sp code)
  obtain ⟨-, -, rfl⟩ | ⟨-, m, -, hend'⟩ := hend.step hx hport
  · exact absurd hend.idle (by simp [Port.begun, Port.accepted])
  · have hout := State.Sequencing.outcome (.begun (P := P) (by exact hport)) hend'
    rw [roleField_encode_construct] at hout
    exact hout.of_unchanged rfl rfl

/-- The records that port `p` adds while none of its transactions fails are of successes. -/
theorem OwnWritesSucceed.outcome_ok {s t : State} {n p : Nat} {rs : List BusRecord} (h : OwnWritesSucceed s t p)
    (hrun : Host.Core.run Sys2Proof.core n s = .next t) (htrace : t.ownTrace p = s.ownTrace p ++ rs) :
    ∀ r ∈ rs, r.outcome = .ok := by
  obtain ⟨new, hnew⟩ := run_busTrace_prefix hrun
  rw [State.ownTrace, ← hnew, List.filter_append] at htrace
  obtain rfl : _ = rs := List.append_cancel_left htrace
  intro r hr
  obtain ⟨hmem, hport⟩ := List.mem_filter.mp hr
  refine h r ?_ (by simpa using hport)
  rwa [← hnew, List.drop_left]

/-- From the offered word to the answer under any schedule, when none of the port's writes fails. -/
theorem ConstructedBetween.all_rows {s t : State} {n p : Nat} {P P' : Port} {dev : DeviceAddress} {sp : SubPort}
    {code : RoleCode} (h : ConstructedBetween s t n p P P' dev sp code) (hl : (prog s.cfg code).length ≠ 0)
    (hok : OwnWritesSucceed s t p) :
    t.ownTrace p = s.ownTrace p ++ (prog s.cfg code).map (rowWrite s.cfg p dev sp .ok) ∧
      P' = ((P.begun dev sp code).afterRows code 0 (prog s.cfg code)).finished code := by
  obtain ⟨done, row, rest, -, htrace, -⟩ | hall := h.outcome hl
  · have hfail := hok.outcome_ok h.firstIdle.run htrace (rowWrite s.cfg p dev sp .fail row) (by simp)
    exact absurd hfail (by simp [rowWrite])
  · exact hall

end Sys2Proof.Machine
end

section
/-! The three constructions of R117 to R119: a role's program, run row by row. -/

namespace Sys2Proof.Machine

/-- The fields of a constructed sensor (R117). -/
theorem Port.finished_sensor (c : Config) (P : Port) (dev : DeviceAddress) (sp : SubPort) :
    ((P.begun dev sp 0b00).afterRows 0b00 0 (prog c 0b00)).finished 0b00 = { P with
      deviceAddress := some dev, subPort := some sp, phase := .configured, role := some .sensorInput,
      currentByte := some 0xFF, directionByte := some 0xFF, pullupByte := some 0xFF, polarityByte := some 0x00,
      seq := none, cmd := none, response := some 0x0000#16 } := rfl

/-- The fields of a constructed relay (R118): pull-up and polarity are as they were. -/
theorem Port.finished_relay {c : Config} {P : Port} (hinv : P.Inv c) (hph : P.phase = .unconfigured)
    (dev : DeviceAddress) (sp : SubPort) :
    ((P.begun dev sp 0b01).afterRows 0b01 0 (prog c 0b01)).finished 0b01 = { P with
      deviceAddress := some dev, subPort := some sp, phase := .configured, role := some .relayOutput,
      currentByte := some 0xFF, directionByte := some 0x00, pullupByte := none, polarityByte := none,
      seq := none, cmd := none, response := some 0x0000#16 } := by
  obtain ⟨-, -, -, -, -, hpullup, hpolarity⟩ := hinv.unconfigured hph
  cases P
  obtain rfl : _ = none := hpullup
  obtain rfl : _ = none := hpolarity
  rfl

/-- Settles O21: the sensor's program has four rows; both schedules write them all. -/
theorem sensorConstruction : Obligations.SensorConstruction := by
  refine ⟨fun s p P dev sp b0 b1 b2 b3 restPlan restAnswers hP hph hc hT ho hpl ha => ?_,
    fun s t n p P P' dev sp h hok => ?_⟩
  · rw [← Port.finished_sensor s.cfg P dev sp]
    exact run_construction (code := 0b00) [b0, b1, b2, b3] rfl (prog_ne_nil_of_role (by decide)) hP hph hc hT ho hpl ha
      rfl
  · rw [← Port.finished_sensor s.cfg P dev sp]
    exact h.all_rows (prog_ne_nil_of_role (by decide)) hok

/-- Settles O22: the relay's program has three rows; both schedules write them all. -/
theorem relayConstruction : Obligations.RelayConstruction := by
  refine ⟨fun s p P dev sp b0 b1 b2 restPlan restAnswers hP hinv hph hc hT ho hpl ha => ?_,
    fun s t n p P P' dev sp h hinv hok => ?_⟩
  · rw [← Port.finished_relay hinv hph dev sp]
    exact run_construction (code := 0b01) [b0, b1, b2] rfl (prog_ne_nil_of_role (by decide)) hP hph hc hT ho hpl ha rfl
  · obtain ⟨-, hph, -⟩ := id h
    rw [← Port.finished_relay hinv hph dev sp]
    exact h.all_rows (prog_ne_nil_of_role (by decide)) hok

/-- An unrecognised role's program is the configuration write, or nothing (R113, R119). -/
theorem prog_of_no_role {code : RoleCode} (h : roleOf code = none) (c : Config) :
    prog c code = if c.invalidRoleWritesConfig then [(.iocon, 0x22)] else [] := by
  simp [prog, h, configValue]

/-- The fields a port keeps when its role is not recognised, once the configuration write succeeded (R119). -/
theorem Port.finished_unrecognised {code : RoleCode} (h : roleOf code = none) (P : Port) (dev : DeviceAddress)
    (sp : SubPort) :
    ((P.begun dev sp code).afterRows code 0 [(.iocon, 0x22)]).finished code = P.failedWith dev sp 0x1000#16 := by
  simp [Port.finished_of_no_role h, Port.afterRows, Port.afterConstructionWrite, Port.applyWrite, Port.dispatchRole, h,
    Port.begun, Port.accepted, Port.failedWith]

/-- UNCONFIGURED under the invariant, a port has no role, and a failed construction gives it none (R119). -/
theorem Port.failedWith_eq {c : Config} {P : Port} (hinv : P.Inv c) (hph : P.phase = .unconfigured)
    (dev : DeviceAddress) (sp : SubPort) (word : ResponseWord) : P.failedWith dev sp word = { P with
      deviceAddress := some dev, subPort := some sp, role := none, phase := .failed, seq := none, cmd := none,
      response := some word } := by
  obtain ⟨-, -, hrole, -⟩ := hinv.unconfigured hph
  cases P
  obtain rfl : _ = none := hrole
  rfl

/-- A construction of an unrecognised role whose configuration write fails, under a plan that lets nothing else go. -/
theorem run_unrecognised_fail {s : State} {p : Nat} {P : Port} {dev : DeviceAddress} {sp : SubPort} {code : RoleCode}
    {plan : List Move} {answers : List Answer} (hrows : prog s.cfg code = [(.iocon, 0x22)]) (hP : s.port? p = some P)
    (hph : P.phase = .unconfigured) (hc : P.cmd = none) (ho : s.offered p = some (encode (.construct dev sp code)))
    (hpl : s.plan = .command p :: .construct p :: plan) (ha : s.answers = .fail :: answers) :
    Host.Core.run Sys2Proof.core 2 s = .next { s with
      plan := plan, answers := answers, active := p, offers := s.offers.eraseP (fun o => o.port == p),
      busTrace := s.busTrace ++ [rowWrite s.cfg p dev sp .fail (.iocon, 0x22)],
      ports := s.ports.set p (P.failedWith dev sp 0x2000#16) } := by
  have hstep := (step_plan hpl (State.ready_command.mpr ⟨P, _, hP, hc, ho⟩)).trans
    (perform_construct_accepted (s := { s with plan := _ }) hP hph ho (by simp [hrows]))
  have hg : (prog s.cfg (roleField (encode (.construct dev sp code))))[0]? = some (.iocon, 0x22) := by
    rw [roleField_encode_construct, hrows, List.getElem?_cons_zero]
  have hfail := step_construct_fail (s := State.accepted { s with plan := .construct p :: plan } p (P.begun dev sp code))
    (.begun (State.port?_setPort_self hP _)) hg rfl ha
  refine (run_succ_of_next hstep).trans ((run_succ_of_next (n := 0) hfail).trans ?_)
  simp [Host.Core.run, Port.constructionFailed, Port.failedWith, Port.begun, Port.accepted]

/-- Settles O23: the program of an unrecognised role has the one row of the configuration write, or none; in the first
case the construction runs as any other, in the second it ends at acceptance. -/
theorem unrecognisedRole : Obligations.UnrecognisedRole := by
  refine ⟨fun s p P dev sp code hcode hP hinv hph hc ho => ?scripted,
    fun s t n p P P' dev sp code hcode h hinv => ?anySchedule⟩
  case scripted =>
    have hr : roleOf code = none := roleOf_eq_none.mpr hcode
    have hrows := prog_of_no_role hr s.cfg
    have hfailed := Port.failedWith_eq hinv hph dev sp
    refine ⟨fun rest hcfg hpl => ?_, fun rest hcfg hpl => ?_⟩
    · rw [if_pos hcfg] at hrows
      refine ⟨fun b answers hT ha => ?_, fun answers ha => ?_⟩
      · have hrun := run_construction [b] hrows (by simp) hP hph hc hT ho hpl ha rfl
        rw [Port.finished_unrecognised hr, hfailed] at hrun
        exact hrun
      · have hrun := run_unrecognised_fail hrows hP hph hc ho hpl ha
        rw [hfailed] at hrun
        exact hrun
    · have hl : (prog s.cfg code).length = 0 := by simp [hrows, hcfg]
      have hstep := (step_plan hpl (State.ready_command.mpr ⟨P, _, hP, hc, ho⟩)).trans
        (perform_construct_empty (s := { s with plan := rest }) hP hph ho hl)
      rw [hfailed] at hstep
      exact hstep
  case anySchedule =>
    have hr : roleOf code = none := roleOf_eq_none.mpr hcode
    have hrows := prog_of_no_role hr s.cfg
    obtain ⟨hP, hph, -, ho, hchosen, -⟩ := id h
    have hfailed := Port.failedWith_eq hinv hph dev sp
    refine ⟨fun hcfg => ?_, fun hcfg => ?_⟩
    · rw [if_pos hcfg] at hrows
      have hout := h.outcome (by simp [hrows])
      rw [ConstructionOutcome, List.drop_zero, hrows] at hout
      obtain ⟨done, row, rest, hdone, htrace, rfl⟩ | ⟨htrace, rfl⟩ := hout
      · obtain ⟨rfl, rfl, -⟩ : done = [] ∧ row = (.iocon, 0x22) ∧ rest = [] := by
          simpa [List.append_eq_singleton_iff] using hdone.symm
        exact ⟨.fail, htrace, hfailed _⟩
      · exact ⟨.ok, htrace, (Port.finished_unrecognised hr P dev sp).trans (hfailed _)⟩
    · have hl : (prog s.cfg code).length = 0 := by simp [hrows, hcfg]
      obtain ⟨d, hstep⟩ := step_of_chosen hchosen
      have hx := hstep.trans (perform_construct_empty (s := { s with plan := s.plan.tail, draws := d }) hP hph ho hl)
      obtain ⟨hn, rfl, rfl⟩ | ⟨hbusy, -⟩ := h.firstIdle.step hx (State.port?_setPort_self hP _)
      · exact ⟨hn, rfl, hfailed _⟩
      · exact absurd rfl hbusy

end Sys2Proof.Machine
end

section
/-! Readiness of a tick (R146), and the logs and the subscriber list over every move (R160, R161, R170), from the effects
of a command and of a move. -/

namespace Sys2Proof.Machine

/-! ### Readiness -/

/-- A ready move goes when the environment's plan has it next (R173). -/
theorem step_of_planned {s : State} {a : Move} (hr : s.ready a = true) (rest : List Move) :
    step { s with plan := a :: rest } = perform a { s with plan := rest } :=
  step_plan rfl ((State.ready_congr rfl rfl rfl a).trans hr)

/-- The tick of a port that is there is ready by the enabling condition alone (R146). -/
theorem State.ready_tick_of_port? {s : State} {p : Nat} {P : Port} (hP : s.port? p = some P) :
    s.ready (.tick p) = true ↔ P.phase = .configured ∧ P.polling = true ∧ P.cmd = none := by
  rw [State.ready_tick, hP]
  simp [Port.tickEnabled_iff]

/-- Settles O17: readiness is the enabling condition of the port, and a plan may put either ready move first. -/
theorem tickReadyExactly : Obligations.TickReadyExactly := fun _ _ _ hP =>
  ⟨State.ready_tick_of_port? hP, fun htick hcommand rest => ⟨step_of_planned htick rest, step_of_planned hcommand rest⟩⟩

/-! ### The logs -/

/-- A move other than a tick logs no event (R160, R170). -/
theorem StepEffect.no_events {c : Config} {ans : Answer} {offer : Option Word} {a : Move} {P P' : Port}
    {r : Option BusRecord} {e : Events} (h : StepEffect c ans offer a P P' r e) (ha : ∀ p, a ≠ .tick p) : e = {} := by
  cases h
  case tickFailed | tickSame | tickChanged => exact absurd rfl (ha _)
  all_goals rfl

/-- A tick logs nothing, one transport error, or one change event of a non-zero mask (R148, R150, R151). -/
theorem StepEffect.tick_events {c : Config} {ans : Answer} {offer : Option Word} {p : Nat} {P P' : Port}
    {r : Option BusRecord} {e : Events} (h : StepEffect c ans offer (.tick p) P P' r e) :
    e = {} ∨ e = { error := some ⟨p, .transport⟩ } ∨
      ∃ x : ChangeEvent, e = { change := some x } ∧ x.port = p ∧ x.mask ≠ 0x00 := by
  cases h
  case tickFailed => exact .inr (.inl rfl)
  case tickSame => exact .inl rfl
  case tickChanged hb _ _ _ _ =>
    exact .inr (.inr ⟨_, rfl, rfl, fun hmask => hb (BitVec.xor_eq_zero_iff.mp hmask)⟩)

/-- An effect without events leaves both logs as they were. -/
theorem State.After.logs_of_no_events {s t : State} {p : Nat} {P' : Port} {r : Option BusRecord}
    (h : s.After t p P' r {}) : t.changeLog = s.changeLog ∧ t.errorLog = s.errorLog :=
  ⟨h.changeLog.trans (List.append_nil _), h.errorLog.trans (List.append_nil _)⟩

/-- Settles O37: each log of the next state is the old one with the events of the move's effect. -/
theorem onlyTicksLogEvents : Obligations.OnlyTicksLogEvents := by
  refine ⟨fun a s t ha hx => ?move, fun i s t hx => ?command, fun p s t hx => ?tick⟩
  case move =>
    obtain ⟨-, rfl⟩ | ⟨P, P', r, e, -, he, hafter⟩ := perform_effect hx
    · exact ⟨rfl, rfl⟩
    · obtain rfl := he.no_events ha
      exact hafter.logs_of_no_events
  case command =>
    obtain ⟨P, P', r, -, -, rfl⟩ := exec_effect hx
    exact (s.withEffect_after s.active P' r).logs_of_no_events
  case tick =>
    obtain ⟨-, rfl⟩ | ⟨P, P', r, e, -, he, hafter⟩ := perform_effect hx
    · exact ⟨.inl rfl, .inl rfl, .inl rfl⟩
    · obtain rfl | rfl | ⟨x, rfl, hport, hmask⟩ := he.tick_events
      · obtain ⟨hchange, herror⟩ := hafter.logs_of_no_events
        exact ⟨.inl herror, .inl hchange, .inl herror⟩
      · have hchange : t.changeLog = s.changeLog := hafter.changeLog.trans (List.append_nil _)
        exact ⟨.inr hafter.errorLog, .inl hchange, .inr hchange⟩
      · have herror : t.errorLog = s.errorLog := hafter.errorLog.trans (List.append_nil _)
        exact ⟨.inl herror, .inr ⟨x, hafter.changeLog, hport, hmask⟩, .inl herror⟩

/-! ### The subscriber list -/

/-- A command keeps the subscriber list or appends one id to it (R154, R161). -/
theorem CommandEffect.subscribers {c : Config} {ans : Answer} {p : Nat} {i : Instr} {P P' : Port} {r : Option BusRecord}
    (h : CommandEffect c ans p i P P' r) :
    P'.subscribers = P.subscribers ∨ ∃ id, P'.subscribers = P.subscribers ++ [id] := by
  cases h
  case subscribed id _ _ => exact .inr ⟨id, rfl⟩
  all_goals exact .inl rfl

/-- A move keeps its port's subscriber list, but for a command step that appends one id (R161). -/
theorem StepEffect.subscribers {c : Config} {ans : Answer} {offer : Option Word} {a : Move} {P P' : Port}
    {r : Option BusRecord} {e : Events} (h : StepEffect c ans offer a P P' r e) :
    P'.subscribers = P.subscribers ∨ a = .command a.port ∧ ∃ id, P'.subscribers = P.subscribers ++ [id] := by
  cases h
  case command h => exact h.subscribers.imp_right fun hid => ⟨rfl, hid⟩
  case constructGoesOn | constructed | unrecognised => exact .inl (by simp)
  all_goals exact .inl rfl

/-- Settles O44: a port's fields change only by an effect of its own move. -/
theorem subscribersOnlyGrow : Obligations.SubscribersOnlyGrow := by
  intro a s t p P P' hx hP hP'
  obtain rfl | ⟨rfl, r, e, he, -⟩ := perform_port hx hP hP'
  · exact .inl rfl
  · exact he.subscribers

end Sys2Proof.Machine
end

section
/-! POLL_START, POLL_STOP, SUBSCRIBE and the poll tick (R140 to R143, R148 to R151, R154, R156): each next state written
out. -/

namespace Sys2Proof.Machine

/-- An OK of data 0x00, as a next state. -/
theorem State.setPort_respond_ok (s : State) (P : Port) :
    s.setPort s.active (P.respond .ok 0x00) = s.withExecuting (P.answered 0x0000#16) := by
  rw [Port.respond_eq_answered (st := .ok) rfl]
  rfl

/-- Settles O29: the refusals in the order of R172, and the two fields written. -/
theorem pollStartMeaning : Obligations.PollStartMeaning := by
  intro s P ms hP
  refine ⟨fun h => exec_portFailed hP h _, fun h => exec_notConfigured hP h (by simp), fun h hm => ?_,
    fun h hm hp => ?_, fun h hm hp => ?_⟩
  · exact execPollStart_next.mpr ⟨P, hP, .inr (.inr ⟨.inr h, .inl ⟨hm,
      (s.setPort_respond_violation (st := .invalidInterval) rfl P).symm⟩⟩)⟩
  · exact execPollStart_next.mpr ⟨P, hP, .inr (.inr ⟨.inr h, .inr (.inl ⟨hm, hp,
      (s.setPort_respond_violation (st := .alreadyPolling) rfl P).symm⟩)⟩)⟩
  · exact execPollStart_next.mpr ⟨P, hP, .inr (.inr ⟨.inr h, .inr (.inr ⟨hm, hp, (s.setPort_respond_ok _).symm⟩)⟩)⟩

/-- POLL_STOP on a CONFIGURED port (R142). -/
theorem exec_pollStop_configured {s : State} {P : Port} (hP : s.port? s.active = some P) (h : P.phase = .configured) :
    exec .pollStop s = .next (s.withExecuting ({ P with polling := false }.answered 0x0000#16)) :=
  execPollStop_next.mpr ⟨P, hP, .inr (.inr ⟨.inr h, (s.setPort_respond_ok _).symm⟩)⟩

/-- Settles O30: the two refusals and the one field written; the port POLL_STOP leaves is one that POLL_START accepts. -/
theorem pollStopMeaning : Obligations.PollStopMeaning := by
  intro s P hP
  refine ⟨fun h => exec_portFailed hP h _, fun h => exec_notConfigured hP h (by simp), exec_pollStop_configured hP,
    fun ms t P' h hm hx hP' => ?_⟩
  obtain rfl := Host.Outcome.next.inj ((exec_pollStop_configured hP h).symm.trans hx)
  obtain rfl := Option.some.inj ((State.port?_setPort_self hP _).symm.trans hP')
  obtain ⟨-, -, -, -, hstart⟩ := pollStartMeaning _ _ ms hP'
  exact hstart h hm rfl

/-- Settles O32: the refusals in the order of R172, and the id at the end of the list. -/
theorem subscribeMeaning : Obligations.SubscribeMeaning := by
  intro s P id hP
  refine ⟨fun h => exec_portFailed hP h _, fun h => exec_notConfigured hP h (by simp), fun h hcap => ?_,
    fun h hcap => ?_⟩
  · exact execSubscribe_next.mpr ⟨P, hP, .inr (.inr ⟨.inr h, .inl ⟨hcap,
      (s.setPort_respond_violation (st := .subscriberOverflow) rfl P).symm⟩⟩)⟩
  · exact execSubscribe_next.mpr ⟨P, hP, .inr (.inr ⟨.inr h, .inr ⟨hcap, (s.setPort_respond_ok _).symm⟩⟩)⟩

/-! ### The tick -/

/-- A transaction and an error event, as a next state: the port keeps its fields (R150). -/
theorem State.reportError_record {s : State} {r : BusRecord} {P : Port} (hP : s.port? r.port = some P) (p : Nat)
    (st : Status) :
    (s.record r).reportError p st = { s.afterBus r P with errorLog := s.errorLog ++ [⟨p, st⟩] } := by
  simp [State.reportError, State.record, State.ports_set_self hP]

/-- A transaction, its port's new fields and a change event, as a next state (R156). -/
theorem State.emit_setPort_record (s : State) (r : BusRecord) (p : Nat) (P P' : Port) (mask levels : Byte) :
    ((s.record r).setPort r.port P').emit p P mask levels =
      { s.afterBus r P' with changeLog := s.changeLog ++ [⟨p, mask, levels, P.subscribers⟩] } := by
  rw [State.setPort_record]
  simp [State.emit]

/-- The cached byte put where it stands changes nothing. -/
theorem Port.currentByte_self {P : Port} {b : Byte} (h : P.currentByte = some b) :
    { P with currentByte := some b } = P := h ▸ rfl

/-- Settles O33: an enabled tick of a located port by the oracle's answer: a failure, the cached byte, another byte. -/
theorem tickMeaning : Obligations.TickMeaning := by
  intro s p P old dev sp hP hph hpoll hc ho hd hs
  have ht : P.tickEnabled = true := Port.tickEnabled_iff.mpr ⟨hph, hpoll, hc⟩
  refine ⟨fun ha => ?failed, fun ha => ?same, fun b ha hb => ?changed⟩
  all_goals refine tick_next.mpr ⟨P, hP, .inr ⟨ht, old, dev, sp, ho, hd, hs, ?_⟩⟩
  case failed =>
    exact .inl ⟨ha, (State.reportError_record (r := ⟨p, _, _, _, _, _⟩) hP p .transport).symm⟩
  case same =>
    refine .inr ⟨old, ha, .inl ⟨rfl, ?_⟩⟩
    rw [Port.currentByte_self ho]
    exact (s.setPort_record ⟨p, _, _, _, _, _⟩ P).symm
  case changed =>
    exact .inr ⟨b, ha, .inr ⟨hb, (s.emit_setPort_record ⟨p, _, _, _, _, _⟩ p P _ _ _).symm⟩⟩

end Sys2Proof.Machine
end

section
/-! `violation` and the status of the response (R168, R185), from the effects of a command and of a move. -/

namespace Sys2Proof.Machine

/-- The statuses that set `violation` are those of code 0x3 and above (R167). -/
theorem Status.setsViolation_eq (st : Status) : st.setsViolation = decide (3 ≤ st.code.toNat) := by
  cases st <;> rfl

/-- `P'` is idle and holds a response, and its `violation` is `old` or the response's own (R168). -/
def Port.Recorded (old : Bool) (P' : Port) : Prop :=
  P'.cmd = none ∧ ∃ r, P'.response = some r ∧ P'.violation = (old || decide (3 ≤ (r.extractLsb' 12 4).toNat))

/-- Every response records its own violation (R92, R168). -/
theorem Port.respond_recorded {P : Port} {old : Bool} (h : P.violation = old) (st : Status) (data : Byte) :
    (P.respond st data).Recorded old :=
  ⟨rfl, _, rfl, by rw [responseWord_status, ← Status.setsViolation_eq, ← h]; rfl⟩

/-- A command records its response, or it is a CONSTRUCT the sequencer will answer and leaves `cmd`, the response and
`violation` as they were. -/
theorem CommandEffect.recorded {c : Config} {ans : Answer} {p : Nat} {i : Instr} {P P' : Port} {r : Option BusRecord}
    (h : CommandEffect c ans p i P P' r) :
    (P'.cmd = P.cmd ∧ P'.response = P.response ∧ P'.violation = P.violation) ∨ P'.Recorded P.violation := by
  cases h
  case accepted => exact .inl ⟨rfl, rfl, rfl⟩
  all_goals exact .inr (Port.respond_recorded rfl _ _)

/-- A ready move records its response, or leaves the response and `violation` as they were; a command step that does the
latter stays busy. -/
theorem StepEffect.recorded {c : Config} {ans : Answer} {offer : Option Word} {a : Move} {P P' : Port}
    {r : Option BusRecord} {e : Events} (h : StepEffect c ans offer a P P' r e) :
    (P'.response = P.response ∧ P'.violation = P.violation ∧ (a = .command a.port → P'.cmd ≠ none)) ∨
      P'.Recorded P.violation := by
  cases h
  case command h => exact h.recorded.imp_left fun ⟨hc, hr, hv⟩ => ⟨hr, hv, fun _ => by simp [hc]⟩
  case constructGoesOn => exact .inl (by simp [Move.port])
  case tickFailed | tickSame | tickChanged => exact .inl ⟨rfl, rfl, nofun⟩
  case illegal | constructFailed | constructed | unrecognised => exact .inr (Port.respond_recorded (by simp) _ _)

/-- A construction step and a tick leave `violation` as it was: the sequencer answers OK, INVALID_ROLE or TRANSPORT
(R168). -/
theorem StepEffect.violation_eq {c : Config} {ans : Answer} {offer : Option Word} {a : Move} {P P' : Port}
    {r : Option BusRecord} {e : Events} (h : StepEffect c ans offer a P P' r e) (ha : a ≠ .command a.port) :
    P'.violation = P.violation := by
  cases h
  case illegal | command => exact absurd rfl ha
  case tickFailed | tickSame | tickChanged => rfl
  case constructGoesOn => simp
  case constructFailed | constructed | unrecognised => simp [violationAfter, Status.setsViolation]

/-- Settles O40: a command step that ends idle records its response, one that stays busy leaves `violation`, and so does
every other move. -/
theorem violationFlag : Obligations.ViolationFlag := by
  intro a s t p P P' hr hx hP hP'
  obtain ⟨hp, rfl⟩ | ⟨rfl, r, e, he⟩ := perform_port_of_ready hr hx hP hP'
  · exact ⟨fun _ => rfl, fun ha => absurd (congrArg Move.port ha) hp⟩
  · refine ⟨he.violation_eq, fun ha => ?_⟩
    obtain ⟨-, hv, hbusy⟩ | ⟨hidle, hrec⟩ := he.recorded
    · exact ⟨fun _ => hv, fun hidle => absurd hidle (hbusy ha)⟩
    · exact ⟨fun hbusy => absurd hidle hbusy, fun _ => hrec⟩

/-! ### Along a run -/

/-- What every effect of a ready move keeps of its port, a step keeps of every port. -/
theorem step_keeps_ports {I : Port → Prop}
    (hI : ∀ {c ans offer a P P' r e}, StepEffect c ans offer a P P' r e → I P → I P') {s t : State}
    (h : step s = .next t) (hs : ∀ P ∈ s.ports, I P) : ∀ P ∈ t.ports, I P := by
  obtain rfl | ⟨a, ans, P, P', r, e, -, hP, he, -, hports, -⟩ := step_effect h
  · exact hs
  · intro Q hQ
    rw [hports] at hQ
    obtain hQ | rfl := List.mem_or_eq_of_mem_set hQ
    · exact hs Q hQ
    · exact hI he (hs P (List.mem_of_getElem? hP))

/-- What a reset port has and every effect keeps, every port of a run from reset has. -/
theorem IsRun.ports_of_reset {I : Port → Prop} (hreset : I Port.reset)
    (hI : ∀ {c ans offer a P P' r e}, StepEffect c ans offer a P P' r e → I P → I P') {run : Nat → State}
    (hrun : IsRun run) (h0 : (run 0).AtReset) (n : Nat) : ∀ P ∈ (run n).ports, I P := by
  induction n with
  | zero =>
    obtain ⟨hports, -⟩ := h0
    intro P hP
    rw [hports] at hP
    exact List.eq_of_mem_replicate hP ▸ hreset
  | succ n ih => exact step_keeps_ports hI (hrun n) ih

/-- A response of a status of 0x3 and above has left `violation` set. -/
def Port.OwnStatusRecorded (P : Port) : Prop :=
  ∀ r, P.response = some r → 3 ≤ (r.extractLsb' 12 4).toNat → P.violation = true

/-- A new response sets the flag itself; without one the flag stays (R168). -/
theorem StepEffect.ownStatusRecorded {c : Config} {ans : Answer} {offer : Option Word} {a : Move} {P P' : Port}
    {r : Option BusRecord} {e : Events} (h : StepEffect c ans offer a P P' r e) (hP : P.OwnStatusRecorded) :
    P'.OwnStatusRecorded := by
  intro w hw hown
  obtain ⟨hresp, hv, -⟩ | ⟨-, w', hw', hv⟩ := h.recorded
  · exact hv.trans (hP w (hresp.symm.trans hw) hown)
  · obtain rfl := Option.some.inj (hw.symm.trans hw')
    rw [hv, decide_eq_true hown, Bool.or_true]

/-- The status codes below 0x3. -/
theorem statusCode_of_not_own {code : BitVec 4} (h : ¬3 ≤ code.toNat) : code = 0x0#4 ∨ code = 0x1#4 ∨ code = 0x2#4 := by
  revert code; decide

/-- Settles O56: along a run from reset a status of 0x3 and above is always recorded in `violation`. -/
theorem noViolationMeansNoOwnStatus : Obligations.NoViolationMeansNoOwnStatus := by
  intro run hrun h0 hclear n P hP r hr
  have hrec : P.OwnStatusRecorded :=
    hrun.ports_of_reset (I := Port.OwnStatusRecorded) nofun StepEffect.ownStatusRecorded h0 n P hP
  exact statusCode_of_not_own fun hown => absurd (hrec r hr hown) (by simp [hclear n P hP])

end Sys2Proof.Machine
end

section
/-! The decoder and the encoder are inverse (R81, R90): a word decodes to a command exactly when its opcode, its zeros
and its operand fields are that command's. -/

namespace Sys2Proof

/-- The operand fields of the word `w` are the operands of the command (R83 to R89). -/
def Instr.OperandsOf (w : Word) : Instr → Prop
  | .construct dev sp role => w.extractLsb' 8 2 = role ∧ subPortOfBit (w.getLsbD 7) = sp ∧ w.extractLsb' 0 7 = dev
  | .readPort => True
  | .writePort value => w.extractLsb' 0 8 = value
  | .toggleRelay pin asserted => w.getLsbD 4 = asserted ∧ w.extractLsb' 0 4 = pin
  | .pollStart ms => w.extractLsb' 0 16 = ms
  | .pollStop => True
  | .subscribe id => w.extractLsb' 0 8 = id

/-- What the decoder reads, command by command (R90): the opcode picks the branch, and the branch is the command's. -/
theorem decode_eq_command {w : Word} {i : Instr} :
    decode w = .command i ↔
      w.extractLsb' 28 4 = i.opcode ∧ w.extractLsb' i.operandWidth (28 - i.operandWidth) = 0#(28 - i.operandWidth) ∧
        i.OperandsOf w := by
  constructor
  · intro h
    unfold decode at h
    dsimp only at h
    split_ifs at h with hop hop hop hop hop hop hop
    all_goals
      obtain ⟨hzero, rfl⟩ := whenReservedZero_eq_command.mp h
      have hzero := beq_iff_eq.mp hzero
      exact ⟨hop, hzero, by simp [Instr.OperandsOf]⟩
  · rintro ⟨hop, hzero, hoperands⟩
    cases i <;>
      simp_all [decode, whenReservedZero, Instr.opcode, Instr.operandWidth, Instr.OperandsOf]

/-- The operands are where the encoder puts them. -/
theorem encode_operands (i : Instr) : i.OperandsOf (encode i) := by
  cases i with
  | construct dev sp role =>
    obtain ⟨hrole, hsp, hdev⟩ := encode_construct_fields dev sp role
    exact ⟨hrole, hsp ▸ subPortOfBit_toBit sp, hdev⟩
  | readPort => trivial
  | writePort v => exact extractLsb'_place_or_place (by decide) _ v
  | toggleRelay pin a => exact encode_toggleRelay_fields pin a
  | pollStart ms => exact extractLsb'_place_or_place (by decide) _ ms
  | pollStop => trivial
  | subscribe id => exact extractLsb'_place_or_place (by decide) _ id

/-- Settles O3: the opcode, the zeros and the operand fields of a command's word are the command's. -/
theorem decodeEncodeAgree : Obligations.DecodeEncodeAgree := fun i =>
  decode_eq_command.mpr ⟨encode_opcode i, encode_reserved i, encode_operands i⟩

/-- Two words with one field in common agree on the field's bits. -/
theorem getLsbD_eq_of_extractLsb'_eq {w w' : Word} {lo n j : Nat} (h : w.extractLsb' lo n = w'.extractLsb' lo n)
    (hlo : lo ≤ j) (hj : j < lo + n) : w.getLsbD j = w'.getLsbD j := by
  have hbit := congrArg (BitVec.getLsbD · (j - lo)) h
  simpa [-BitVec.getLsbD_eq_getElem, BitVec.getLsbD_extractLsb', show j - lo < n by omega, Nat.add_sub_cancel' hlo]
    using hbit

/-- Two words with one command's operands agree on the bits the operands fill. -/
theorem Instr.OperandsOf.getLsbD_eq {w w' : Word} {i : Instr} (h : i.OperandsOf w) (h' : i.OperandsOf w') {j : Nat}
    (hj : j < i.operandWidth) : w.getLsbD j = w'.getLsbD j := by
  cases i with
  | construct dev sp role =>
    obtain ⟨hrole, hsp, hdev⟩ := h
    obtain ⟨hrole', hsp', hdev'⟩ := h'
    simp only [Instr.operandWidth] at hj
    obtain hlt | rfl | hgt := Nat.lt_trichotomy j 7
    · exact getLsbD_eq_of_extractLsb'_eq (hdev.trans hdev'.symm) (Nat.zero_le j) (by omega)
    · rw [← toBit_subPortOfBit (w.getLsbD 7), hsp, ← hsp', toBit_subPortOfBit]
    · exact getLsbD_eq_of_extractLsb'_eq (hrole.trans hrole'.symm) hgt hj
  | toggleRelay pin a =>
    obtain ⟨ha, hpin⟩ := h
    obtain ⟨ha', hpin'⟩ := h'
    obtain hlt | rfl := Nat.lt_succ_iff_lt_or_eq.mp hj
    · exact getLsbD_eq_of_extractLsb'_eq (hpin.trans hpin'.symm) (Nat.zero_le j) (by omega)
    · exact ha.trans ha'.symm
  | readPort | pollStop => exact absurd hj (Nat.not_lt_zero j)
  | writePort _ | pollStart _ | subscribe _ =>
    exact getLsbD_eq_of_extractLsb'_eq (h.trans h'.symm) (Nat.zero_le j) (by simpa [Instr.operandWidth] using hj)

/-- Settles O4: every bit of an accepted word is in its opcode, its zeros or its operands, which are its command's. -/
theorem encodeDecodeAgree : Obligations.EncodeDecodeAgree := by
  intro w i h
  obtain ⟨hop, hzero, hoperands⟩ := decode_eq_command.mp h
  refine word_ext fun j hj => ?_
  by_cases hw : j < i.operandWidth
  · exact (encode_operands i).getLsbD_eq hoperands hw
  · by_cases h28 : j < 28
    · exact getLsbD_eq_of_extractLsb'_eq ((encode_reserved i).trans hzero.symm) (by omega) (by omega)
    · exact getLsbD_eq_of_extractLsb'_eq ((encode_opcode i).trans hop.symm) (by omega) (by omega)

/-! ### The assembler's words (R96) -/

/-- A number that fits its field, put at the bottom of a word. -/
theorem place_zero_ofNat {n x : Nat} (h : x < 2 ^ n) : place 0 (BitVec.ofNat n x) = BitVec.ofNat 32 x := by
  refine BitVec.eq_of_toNat_eq ?_
  simp [place, Nat.mod_eq_of_lt h]

/-- A source line with one bounded operand is its word below the bound, and is refused above it. -/
theorem SourceCommand.assemble_eq_ite {c : SourceCommand} {x bound : Nat} {w : Word}
    (hfits : c.fits = decide (x ≤ bound)) (hw : x ≤ bound → c.assemble = some w) :
    c.assemble = if x > bound then none else some w := by
  split_ifs with hx
  · have hno : c.fits = false := hfits.trans (decide_eq_false (Nat.not_le.mpr hx))
    simp [SourceCommand.assemble, SourceCommand.toInstr, hno]
  · exact hw (Nat.not_lt.mp hx)

/-- Settles O6: each word is its command's places, and an operand is refused exactly above its field's bound. -/
theorem assembledWords : Obligations.AssembledWords := by
  refine ⟨fun dev sp role => SourceCommand.assemble_eq_ite rfl fun h => ?construct, rfl,
    fun value => SourceCommand.assemble_eq_ite rfl fun h => ?writePort,
    fun pin a => SourceCommand.assemble_eq_ite rfl fun h => ?toggleRelay,
    fun ms => SourceCommand.assemble_eq_ite rfl fun h => ?pollStart, rfl,
    fun id => SourceCommand.assemble_eq_ite rfl fun h => ?subscribe⟩
  all_goals simp only [SourceCommand.assemble, SourceCommand.toInstr, SourceCommand.fits, decide_eq_true h, if_true,
    Option.map_some, encode]
  case construct =>
    rw [place_zero_ofNat (by omega)]
    cases sp <;> rfl
  case toggleRelay =>
    rw [place_zero_ofNat (by omega)]
    cases a <;> rfl
  case writePort | pollStart | subscribe =>
    rw [place_zero_ofNat (by omega)]
    rfl

end Sys2Proof
end

section
/-! The transaction of an effect (R58, R95), and the fields a command and a ready move keep. -/

namespace Sys2Proof.Machine

/-! ### The transaction -/

/-- The record of a read of GPIO by port `p`, with the oracle's answer (R95). -/
def gpioRead (c : Config) (p : Nat) (dev : DeviceAddress) (sp : SubPort) (ans : Answer) : BusRecord :=
  ⟨p, .read, dev, c.regs.addr .gpio sp, busByte ans, busOutcome ans⟩

/-- The families the block writes (R58). -/
def WrittenFamily (f : Family) : Prop := f = .iocon ∨ f = .iodir ∨ f = .gppu ∨ f = .ipol ∨ f = .gpio

theorem prog_row_written {c : Config} {code : RoleCode} {k : Nat} {f : Family} {v : Byte}
    (h : (prog c code)[k]? = some (f, v)) : WrittenFamily f := by
  obtain ⟨-, rfl, -⟩ | ⟨-, ⟨-, rfl, -⟩ | ⟨-, rfl, -⟩ | ⟨-, rfl, -⟩⟩ | ⟨-, ⟨-, rfl, -⟩ | ⟨-, rfl, -⟩⟩ := prog_row h <;>
    simp [WrittenFamily]

/-- A command's transaction writes or reads GPIO at its port's own device and sub-port, answered by the oracle. -/
theorem CommandEffect.record_form {c : Config} {ans : Answer} {p : Nat} {i : Instr} {P P' : Port} {r : BusRecord}
    (h : CommandEffect c ans p i P P' (some r)) :
    ∃ dev sp, P.deviceAddress = some dev ∧ P.subPort = some sp ∧
      ((∃ v, r = rowWrite c p dev sp (busOutcome ans) (.gpio, v)) ∨ r = gpioRead c p dev sp ans) := by
  cases h with
  | readFailed _ dev sp _ hd hs ha | readOk _ dev sp _ _ hd hs ha => exact ⟨dev, sp, hd, hs, .inr (by rw [ha]; rfl)⟩
  | writeFailed _ _ dev sp _ hd hs ha | writeOk _ _ dev sp _ hd hs ha
  | toggleFailed _ _ _ _ _ dev sp _ _ _ _ hd hs ha | toggleOk _ _ _ _ _ dev sp _ _ _ _ hd hs ha =>
    exact ⟨dev, sp, hd, hs, .inl ⟨_, by rw [ha]; rfl⟩⟩

/-- A move's transaction, at its port's own device and sub-port, answered by the oracle: a construction step writes one
of the five families, a command writes or reads GPIO, a tick reads GPIO. -/
theorem StepEffect.record_form {c : Config} {ans : Answer} {offer : Option Word} {a : Move} {P P' : Port} {r : BusRecord}
    {e : Events} (h : StepEffect c ans offer a P P' (some r) e) :
    ∃ dev sp, P.deviceAddress = some dev ∧ P.subPort = some sp ∧
      ((∃ f v, r = rowWrite c a.port dev sp (busOutcome ans) (f, v) ∧ WrittenFamily f ∧
          (a = .construct a.port ∨ a = .command a.port ∧ f = .gpio)) ∨
        r = gpioRead c a.port dev sp ans ∧ a ≠ .construct a.port) := by
  cases h with
  | command _ _ _ _ _ _ _ _ h =>
    obtain ⟨dev, sp, hd, hs, ⟨v, hr⟩ | hr⟩ := h.record_form
    · exact ⟨dev, sp, hd, hs, .inl ⟨.gpio, v, hr, by simp [WrittenFamily], .inr ⟨rfl, rfl⟩⟩⟩
    · exact ⟨dev, sp, hd, hs, .inr ⟨hr, nofun⟩⟩
  | constructFailed _ _ _ _ f v dev sp _ _ _ hg hd hs ha | constructGoesOn _ _ _ _ f v dev sp _ _ _ hg hd hs ha
  | constructed _ _ _ _ f v dev sp _ _ _ hg hd hs ha | unrecognised _ _ _ _ f v dev sp _ _ _ hg hd hs ha =>
    exact ⟨dev, sp, hd, hs, .inl ⟨f, v, by rw [ha]; rfl, prog_row_written hg, .inl rfl⟩⟩
  | tickFailed _ _ _ dev sp _ _ hd hs ha | tickSame _ _ _ dev sp _ _ hd hs ha
  | tickChanged _ _ _ _ dev sp _ _ hd hs ha => exact ⟨dev, sp, hd, hs, .inr ⟨by rw [ha]; rfl, nofun⟩⟩

/-- A move's transaction ends as the oracle answers. -/
theorem StepEffect.record_outcome {c : Config} {ans : Answer} {offer : Option Word} {a : Move} {P P' : Port}
    {r : BusRecord} {e : Events} (h : StepEffect c ans offer a P P' (some r) e) : r.outcome = busOutcome ans := by
  obtain ⟨dev, sp, -, -, ⟨f, v, rfl, -⟩ | ⟨rfl, -⟩⟩ := h.record_form <;> rfl

/-- A move's transaction is one the block can have made (R58, R95). -/
theorem StepEffect.record_allowed {c : Config} {ans : Answer} {offer : Option Word} {a : Move} {P P' : Port}
    {r : BusRecord} {e : Events} (h : StepEffect c ans offer a P P' (some r) e) : r.Allowed c := by
  obtain ⟨dev, sp, -, -, ⟨f, v, rfl, hf, -⟩ | ⟨rfl, -⟩⟩ := h.record_form
  · exact ⟨nofun, f, sp, hf, rfl⟩
  · refine ⟨?_, sp, rfl⟩
    cases ans <;> simp [gpioRead, busByte, busOutcome]

/-- Settles O38: a move leaves the bus trace or adds the record of its effect. -/
theorem registersAccessed : Obligations.RegistersAccessed := by
  intro a s t hx
  obtain ⟨-, rfl⟩ | ⟨P, P', r, e, hP, he, hafter⟩ := perform_effect hx
  · exact .inl rfl
  cases r with
  | none => exact .inl (hafter.busTrace.trans (List.append_nil _))
  | some r =>
    obtain ⟨dev, sp, hd, hs, hform⟩ := he.record_form
    refine .inr ⟨r, P, dev, sp, hafter.busTrace, he.record_port, hP, hd, hs, ?_⟩
    obtain ⟨f, v, rfl, hf, ha⟩ | ⟨rfl, ha⟩ := hform
    · refine ⟨rfl, ?_⟩
      obtain ha | ⟨ha, rfl⟩ := ha
      · rw [ha]
        exact ⟨rfl, f, rfl, hf⟩
      · rw [ha]
        rfl
    · refine ⟨rfl, ?_⟩
      cases a with
      | command p => rfl
      | construct p => exact absurd rfl ha
      | tick p => exact ⟨rfl, rfl⟩

/-- The state in which the move of the arbiter's choice is made: an entry of the plan is consumed, and perhaps a free
value drawn (R173). -/
abbrev State.afterChoice (s : State) (d : Nat) : State := { s with plan := s.plan.tail, draws := d }

/-- Everything a step can do: wait, or make the chosen ready move with one of its effects. -/
theorem step_moves {s t : State} (h : step s = .next t) :
    (s.chosen = none ∧ t = s) ∨ ∃ a d P P' r e, s.chosen = some a ∧ s.ready a = true ∧ s.port? a.port = some P ∧
      StepEffect s.cfg (s.afterChoice d).nextAnswer (s.offered a.port) a P P' r e ∧
      (s.afterChoice d).After t a.port P' r e := by
  obtain ⟨a, d, hchoice, hr, hstep⟩ | ⟨hchoice, hstep⟩ := step_cases s
  · obtain ⟨P, P', r, e, hP, he, hafter⟩ := perform_effect_of_ready (s := s.afterChoice d)
      ((State.ready_congr rfl rfl rfl a).trans hr) (hstep.symm.trans h)
    exact .inr ⟨a, d, P, P', r, e, by simp [State.chosen, hchoice], hr, hP, he, hafter⟩
  · exact .inl ⟨by simp [State.chosen, hchoice], (Host.Outcome.next.inj (hstep.symm.trans h)).symm⟩

/-- Settles O57: the field is no step's to write, and while it is false the oracle's answer is a failure. -/
theorem uninitialisedTransportFails : Obligations.UninitialisedTransportFails := by
  intro s t hT h
  obtain ⟨-, rfl⟩ | ⟨a, d, P, P', r, e, -, -, -, he, hafter⟩ := step_moves h
  · exact ⟨hT, .inl rfl⟩
  refine ⟨hafter.transportReady.trans hT, ?_⟩
  cases r with
  | none => exact .inl (hafter.busTrace.trans (List.append_nil _))
  | some r =>
    have ho := he.record_outcome
    rw [State.nextAnswer_of_not_ready (s := s.afterChoice d) hT] at ho
    exact .inr ⟨r, hafter.busTrace, ho⟩

/-! ### Phase and configuration -/

/-- The fields construction fixes (R121). -/
def Port.SameConfiguration (P P' : Port) : Prop :=
  P'.deviceAddress = P.deviceAddress ∧ P'.subPort = P.subPort ∧ P'.role = P.role ∧
    P'.directionByte = P.directionByte ∧ P'.pullupByte = P.pullupByte ∧ P'.polarityByte = P.polarityByte

/-- A command keeps the phase and the configuration, or it is a CONSTRUCT on a port that is neither CONFIGURED nor FAILED:
accepted, or ended at once for an empty program. -/
theorem CommandEffect.phase {c : Config} {ans : Answer} {p : Nat} {i : Instr} {P P' : Port} {r : Option BusRecord}
    (h : CommandEffect c ans p i P P' r) :
    (P'.phase = P.phase ∧ P.SameConfiguration P') ∨
      ((P.phase = .unconfigured ∨ P.phase = .constructing) ∧ ∃ dev sp code, i = .construct dev sp code ∧
        (P'.phase = .constructing ∨ P'.phase = .failed ∧ (prog c code).length = 0)) := by
  cases h with
  | accepted dev sp code _ h _ => exact .inr ⟨h, dev, sp, code, rfl, .inl rfl⟩
  | emptyProgram dev sp code _ h hl _ => exact .inr ⟨h, dev, sp, code, rfl, .inr ⟨rfl, hl⟩⟩
  | _ => exact .inl ⟨rfl, rfl, rfl, rfl, rfl, rfl, rfl⟩

/-- A ready move keeps the phase and the configuration, or it is a CONSTRUCT command on a port that is neither CONFIGURED
nor FAILED, or a construction step. -/
theorem StepEffect.phase {c : Config} {ans : Answer} {offer : Option Word} {a : Move} {P P' : Port}
    {r : Option BusRecord} {e : Events} (h : StepEffect c ans offer a P P' r e) :
    (P'.phase = P.phase ∧ P.SameConfiguration P') ∨
      (a = .command a.port ∧ (P.phase = .unconfigured ∨ P.phase = .constructing) ∧ ∃ w dev sp code, offer = some w ∧
        decode w = .command (.construct dev sp code) ∧
          (P'.phase = .constructing ∨ P'.phase = .failed ∧ (prog c code).length = 0)) ∨
      (a = .construct a.port ∧ P.phase = .constructing ∧
        (P'.phase = .constructing ∨ P'.phase = .configured ∨ P'.phase = .failed)) := by
  cases h with
  | illegal => exact .inl ⟨rfl, rfl, rfl, rfl, rfl, rfl, rfl⟩
  | command p _ _ w i _ ho hd h =>
    obtain hsame | ⟨hph, dev, sp, code, rfl, hphase⟩ := h.phase
    · exact .inl hsame
    · exact .inr (.inl ⟨rfl, hph, w, dev, sp, code, ho, hd, hphase⟩)
  | constructFailed _ _ _ _ _ _ _ _ hph => exact .inr (.inr ⟨rfl, hph, .inr (.inr rfl)⟩)
  | constructGoesOn _ _ _ _ _ _ _ _ hph => exact .inr (.inr ⟨rfl, hph, .inl (by simp [hph])⟩)
  | constructed _ _ _ _ _ _ _ _ hph => exact .inr (.inr ⟨rfl, hph, .inr (.inl rfl)⟩)
  | unrecognised _ _ _ _ _ _ _ _ hph => exact .inr (.inr ⟨rfl, hph, .inr (.inr rfl)⟩)
  | tickFailed | tickSame | tickChanged => exact .inl ⟨rfl, rfl, rfl, rfl, rfl, rfl, rfl⟩

/-- CONFIGURED and FAILED have no way out, and the configuration is fixed there (R28, R121, R171). -/
theorem StepEffect.phase_eq_of_settled {c : Config} {ans : Answer} {offer : Option Word} {a : Move} {P P' : Port}
    {r : Option BusRecord} {e : Events} (h : StepEffect c ans offer a P P' r e)
    (hph : P.phase = .configured ∨ P.phase = .failed) : P'.phase = P.phase ∧ P.SameConfiguration P' := by
  obtain hsame | ⟨-, hstart, -⟩ | ⟨-, hconstructing, -⟩ := h.phase
  · exact hsame
  · obtain h | h := hph <;> simp [h] at hstart
  · obtain h | h := hph <;> simp [h] at hconstructing

/-- A step leaves the phase and the configuration of a CONFIGURED or FAILED port. -/
theorem step_settled {s t : State} {p : Nat} {P P' : Port} (h : step s = .next t) (hP : s.port? p = some P)
    (hP' : t.port? p = some P') (hph : P.phase = .configured ∨ P.phase = .failed) :
    P'.phase = P.phase ∧ P.SameConfiguration P' := by
  obtain rfl | ⟨a, s', -, -, -, -, r, e, he, -⟩ := step_port h hP hP'
  · exact ⟨rfl, rfl, rfl, rfl, rfl, rfl, rfl⟩
  · exact he.phase_eq_of_settled hph

/-- Settles O42: a CONFIGURED port keeps its phase and its configuration. -/
theorem configurationFixedAfterConstruction : Obligations.ConfigurationFixedAfterConstruction := by
  intro s t p P P' h hP hP' hph
  obtain ⟨hphase, hdev, hsp, hrole, hdir, hpull, hpol⟩ := step_settled h hP hP' (.inl hph)
  exact ⟨hdev, hsp, hrole, hdir, hpull, hpol, hphase.trans hph⟩

/-- Settles O43: every command on a FAILED port is refused before anything else, and no move changes its phase. -/
theorem failedIsTerminal : Obligations.FailedIsTerminal :=
  ⟨fun i _ _ hP hph => exec_portFailed hP hph i,
    fun _ _ _ _ _ h hP hP' hph => (step_settled h hP hP' (.inr hph)).1.trans hph⟩

/-- Only a parameter that leaves out the configuration write makes a program empty, and only for an unrecognised role
(R113). -/
theorem prog_length_eq_zero {c : Config} {code : RoleCode} (h : (prog c code).length = 0) :
    c.invalidRoleWritesConfig = false ∧ (code = 0b10#2 ∨ code = 0b11#2) := by
  have hr : roleOf code = none := Classical.byContradiction fun hr => prog_ne_nil_of_role hr h
  rw [prog_length, hr] at h
  exact ⟨by simpa using h, roleOf_eq_none.mp hr⟩

/-- Settles O41: the transitions of an effect, where a command finds its port idle and so, under the invariant, not
CONSTRUCTING. -/
theorem phaseTransitions : Obligations.PhaseTransitions := by
  intro a s t p P P' hr hx hP hinv hP' hne
  obtain ⟨-, rfl⟩ | ⟨rfl, r, e, he⟩ := perform_port_of_ready hr hx hP hP'
  · exact absurd rfl hne
  obtain ⟨hsame, -⟩ | ⟨ha, hph, w, dev, sp, code, ho, hd, hphase⟩ | ⟨ha, hph, hphase⟩ := he.phase
  · exact absurd hsame hne
  · obtain hph | hph := hph
    · obtain hc | ⟨hf, hl⟩ := hphase
      · exact .inl ⟨ha, hph, hc, w, dev, sp, code, ho, hd⟩
      · obtain ⟨hwrites, hcode⟩ := prog_length_eq_zero hl
        exact .inr (.inl ⟨ha, hph, hf, hwrites, w, dev, sp, code, ho, hd, hcode⟩)
    · have hbusy := State.ready_command_of_busy hP (hinv.busy_of_constructing hph)
      rw [← ha, hr] at hbusy
      cases hbusy
  · exact .inr (.inr ⟨ha, hph, hphase.resolve_left fun h => hne (h.trans hph.symm)⟩)

/-! ### Polling -/

/-- Only a command starts or stops polling (R140, R142). -/
theorem StepEffect.polling_eq {c : Config} {ans : Answer} {offer : Option Word} {a : Move} {P P' : Port}
    {r : Option BusRecord} {e : Events} (h : StepEffect c ans offer a P P' r e) (ha : a ≠ .command a.port) :
    P'.polling = P.polling := by
  cases h with
  | illegal | command => exact absurd rfl ha
  | constructGoesOn | constructed | unrecognised => simp
  | constructFailed | tickFailed | tickSame | tickChanged => rfl

/-- A port that does not poll has no ready tick (R146). -/
theorem State.ready_tick_of_not_polling {s : State} {p : Nat} (h : ∀ P, s.port? p = some P → P.polling = false) :
    s.ready (.tick p) = false := by
  refine Bool.eq_false_iff.mpr fun hr => ?_
  obtain ⟨P, hP, ht⟩ := State.ready_tick.mp hr
  obtain ⟨-, hpoll, -⟩ := Port.tickEnabled_iff.mp ht
  exact absurd (hpoll.symm.trans (h P hP)) (by simp)

/-- Settles O31: POLL_STOP clears the field a tick needs, and only a command of the port sets it. -/
theorem pollStopCancelsTicks : Obligations.PollStopCancelsTicks := by
  refine ⟨fun s t P hP hph hx => ?stopped, fun s t p P hP hpoll h hchosen => ?kept⟩
  case stopped =>
    obtain rfl := Host.Outcome.next.inj ((exec_pollStop_configured hP hph).symm.trans hx)
    refine State.ready_tick_of_not_polling fun Q hQ => ?_
    obtain rfl := Option.some.inj ((State.port?_setPort_self hP _).symm.trans hQ)
    rfl
  case kept =>
    refine State.ready_tick_of_not_polling fun Q hQ => ?_
    obtain rfl | ⟨a, s', rfl, -, ha, -, r, e, he, -⟩ := step_port h hP hQ
    · exact hpoll
    · exact (he.polling_eq fun hcmd => hchosen (hcmd ▸ ha)).trans hpoll

/-! ### The cached byte -/

/-- How a move with the transaction `r` may change its port's cached byte: not at all, to the value of a successful
transaction on GPIO, or to 0xFF in step 0 of a sensor's construction (R26, R71). -/
def CachedByteMoved (c : Config) (a : Move) (P P' : Port) (r : Option BusRecord) : Prop :=
  P'.currentByte = P.currentByte ∨
    (∃ x sp, r = some x ∧ P.subPort = some sp ∧ x.outcome = .ok ∧ x.reg = c.regs.addr .gpio sp ∧
      P'.currentByte = x.value) ∨
    (a = .construct a.port ∧ P.seq = some 0 ∧ P'.role = some .sensorInput ∧ P'.currentByte = some 0xFF)

theorem CommandEffect.cachedByteMoved {c : Config} {ans : Answer} {p : Nat} {i : Instr} {P P' : Port}
    {r : Option BusRecord} (h : CommandEffect c ans p i P P' r) : CachedByteMoved c (.command p) P P' r := by
  cases h with
  | readOk _ _ sp _ _ _ hs _ | writeOk _ _ _ sp _ _ hs _ | toggleOk _ _ _ _ _ _ sp _ _ _ _ _ hs _ =>
    exact .inr (.inl ⟨_, sp, rfl, hs, rfl, rfl, rfl⟩)
  | _ => exact .inl rfl

/-- A successful construction write changes the cached byte to the value written to GPIO, or, in step 0 of a sensor's
construction, to 0xFF with the role (R115, R116). -/
theorem Port.afterConstructionWrite_currentByte_cases (P : Port) (code : RoleCode) (k : Nat) (f : Family) (v : Byte) :
    (P.afterConstructionWrite code k f v).currentByte = P.currentByte ∨
      (f = .gpio ∧ (P.afterConstructionWrite code k f v).currentByte = some v) ∨
      (k = 0 ∧ (P.afterConstructionWrite code k f v).role = some .sensorInput ∧
        (P.afterConstructionWrite code k f v).currentByte = some 0xFF) := by
  rw [Port.afterConstructionWrite_currentByte, Port.afterConstructionWrite_role]
  by_cases hsensor : k = 0 ∧ roleOf code = some .sensorInput
  · obtain ⟨rfl, hr⟩ := hsensor
    exact .inr (.inr ⟨rfl, by simp [hr], by simp [hr]⟩)
  · rw [if_neg hsensor]
    by_cases hf : f = .gpio
    · exact .inr (.inl ⟨hf, if_pos hf⟩)
    · exact .inl (if_neg hf)

theorem cachedByteMoved_of_write {c : Config} {p : Nat} {P P' : Port} {dev : DeviceAddress} {sp : SubPort}
    {code : RoleCode} {k : Nat} {f : Family} {v : Byte} (hs : P.subPort = some sp) (hk : P.seq = some k)
    (hbyte : P'.currentByte = (P.afterConstructionWrite code k f v).currentByte)
    (hrole : P'.role = (P.afterConstructionWrite code k f v).role) :
    CachedByteMoved c (.construct p) P P' (some (rowWrite c p dev sp .ok (f, v))) := by
  rw [CachedByteMoved, hbyte, hrole]
  obtain hsame | ⟨rfl, hv⟩ | ⟨rfl, hr, hb⟩ := P.afterConstructionWrite_currentByte_cases code k f v
  · exact .inl hsame
  · exact .inr (.inl ⟨_, sp, rfl, hs, rfl, rfl, hv⟩)
  · exact .inr (.inr ⟨rfl, hk, hr, hb⟩)

theorem StepEffect.cachedByteMoved {c : Config} {ans : Answer} {offer : Option Word} {a : Move} {P P' : Port}
    {r : Option BusRecord} {e : Events} (h : StepEffect c ans offer a P P' r e) : CachedByteMoved c a P P' r := by
  cases h with
  | command _ _ _ _ _ _ _ _ h => exact h.cachedByteMoved.imp_right (.imp_right nofun)
  | constructGoesOn _ _ _ _ _ _ _ _ _ _ hk _ _ hs | constructed _ _ _ _ _ _ _ _ _ _ hk _ _ hs
  | unrecognised _ _ _ _ _ _ _ _ _ _ hk _ _ hs => exact cachedByteMoved_of_write hs hk rfl rfl
  | tickChanged _ _ _ _ _ sp _ _ _ hs => exact .inr (.inl ⟨_, sp, rfl, hs, rfl, rfl, rfl⟩)
  | illegal | constructFailed | tickFailed | tickSame => exact .inl rfl

/-- Settles O45: a port's cached byte changes only by an effect of its own move, whose record is the step's. -/
theorem cachedByteFollowsGpio : Obligations.CachedByteFollowsGpio := by
  intro a s t p P P' hx hP hP' hne
  obtain rfl | ⟨rfl, r, e, he, hafter⟩ := perform_port hx hP hP'
  · exact absurd rfl hne
  obtain hsame | ⟨x, sp, rfl, hs, hok, hreg, hvalue⟩ | hsensor := he.cachedByteMoved
  · exact absurd hsame hne
  · exact ⟨rfl, .inl ⟨x, sp, hafter.busTrace, he.record_port, hs, hok, hreg, hvalue⟩⟩
  · exact ⟨rfl, .inr hsensor⟩

end Sys2Proof.Machine
end

section
/-! The invariant at reset and through every step (R21, R27 to R33): a port's part by the effects of a command and of a
move, the logs' part by what an effect adds to them. -/

namespace Sys2Proof.Machine

/-! ### At reset -/

theorem Port.inv_reset (c : Config) : Port.reset.Inv c where
  unconfigured _ := ⟨rfl, rfl, rfl, rfl, rfl, rfl, rfl⟩
  constructing := nofun
  configured := nofun
  seqOutside _ := rfl
  idleOutside _ := rfl
  quietOutside _ := ⟨rfl, rfl, rfl⟩
  pollingInterval := nofun
  intervalNonzero := nofun
  withinCapacity n _ := Nat.zero_le n
  responseForm := nofun

theorem State.inv_boot (c : Config) : (State.boot c).Inv where
  ports _ hP := State.eq_reset_of_mem_ports_boot hP ▸ Port.inv_reset c
  count := State.length_ports_boot c
  busTrace := nofun
  changeLog := nofun
  errorLog := nofun

/-- Settles O51: every port of the boot state is a reset port, and the logs are empty. -/
theorem invariantAtReset : Obligations.InvariantAtReset := ⟨State.inv_boot, State.inv_boot _⟩

/-! ### One port through a command -/

section
variable {c : Config} {P : Port}

/-- A response is of R92's form, and a status of R168 sets `violation` with it. -/
theorem Port.respond_form (P : Port) {st : Status} {data : Byte} (hdata : st ≠ .ok → data = 0x00) :
    ∀ r, (P.respond st data).response = some r → ∃ st' data', r = responseWord st' data' ∧
      (st' ≠ .ok → data' = 0x00) ∧ (st'.setsViolation = true → (P.respond st data).violation = true) := by
  intro r hr
  obtain rfl := Option.some.inj hr
  exact ⟨st, data, rfl, hdata, fun hv => by simp [violationAfter, hv]⟩

/-- An answered port keeps the invariant outside CONSTRUCTING. -/
theorem Port.Inv.respond (h : P.Inv c) (hph : P.phase ≠ .constructing) {st : Status} {data : Byte}
    (hdata : st ≠ .ok → data = 0x00) : (P.respond st data).Inv c where
  unconfigured := h.unconfigured
  constructing hc := absurd hc hph
  configured := h.configured
  seqOutside := h.seqOutside
  idleOutside _ := rfl
  quietOutside := h.quietOutside
  pollingInterval := h.pollingInterval
  intervalNonzero := h.intervalNonzero
  withinCapacity := h.withinCapacity
  responseForm := P.respond_form hdata

/-- A CONFIGURED port may cache any byte. -/
theorem Port.Inv.cache (h : P.Inv c) (hph : P.phase = .configured) (b : Byte) :
    ({ P with currentByte := some b } : Port).Inv c :=
  { h with
    unconfigured := fun hu => by simp [hph] at hu
    constructing := fun hc => by simp [hph] at hc
    configured := fun _ => by
      obtain ⟨hdev, hsp, -, hrole⟩ := h.configured hph
      exact ⟨hdev, hsp, nofun, hrole⟩ }

/-- A CONFIGURED port may poll at any interval but 0 (R140). -/
theorem Port.Inv.startPolling (h : P.Inv c) (hph : P.phase = .configured) {ms : Interval} (hms : ms ≠ 0) :
    ({ P with interval := some ms, polling := true } : Port).Inv c :=
  { h with
    quietOutside := fun hq => absurd hph hq
    pollingInterval := nofun
    intervalNonzero := fun hz => hms (Option.some.inj hz) }

/-- Any port may stop polling (R142). -/
theorem Port.Inv.stopPolling (h : P.Inv c) : ({ P with polling := false } : Port).Inv c :=
  { h with
    quietOutside := fun hq => by
      obtain ⟨-, hrest⟩ := h.quietOutside hq
      exact ⟨rfl, hrest⟩
    pollingInterval := nofun }

/-- A CONFIGURED port below the capacity takes one more subscriber (R154). -/
theorem Port.Inv.subscribe (h : P.Inv c) (hph : P.phase = .configured)
    (hcap : c.maxSubscribers ≠ some P.subscribers.length) (id : Byte) :
    ({ P with subscribers := P.subscribers ++ [id] } : Port).Inv c :=
  { h with
    quietOutside := fun hq => absurd hph hq
    withinCapacity := fun n hn => by
      have hle := h.withinCapacity n hn
      have hne : P.subscribers.length ≠ n := fun hl => hcap (hl ▸ hn)
      simp only [List.length_append, List.length_singleton]
      omega }

/-- The fields of a CONFIGURED port: a sensor's configuration or a relay's (R117, R118). -/
def Port.ConfiguredFields (P : Port) : Prop :=
  P.deviceAddress ≠ none ∧ P.subPort ≠ none ∧ P.currentByte ≠ none ∧
    (P.role = some .sensorInput ∧ P.directionByte = some sensorDirection ∧ P.pullupByte = some sensorPullup ∧
        P.polarityByte = some sensorPolarity ∨
      P.role = some .relayOutput ∧ P.directionByte = some relayDirection ∧ P.pullupByte = none ∧ P.polarityByte = none)

/-- The end of a construction, in FAILED or in CONFIGURED, leaves a port of the invariant, which neither polls nor has
subscribers yet. -/
theorem Port.inv_respond_of_end {Q : Port} (hph : Q.phase = .failed ∨ Q.phase = .configured ∧ Q.ConfiguredFields)
    (hseq : Q.seq = none) (hquiet : Q.polling = false ∧ Q.interval = none ∧ Q.subscribers = []) (st : Status) :
    (Q.respond st 0x00).Inv c where
  unconfigured hu := by simp_all
  constructing hc := by simp_all
  configured hc := by
    obtain hf | ⟨-, hfields⟩ := hph
    · simp [hf] at hc
    · exact hfields
  seqOutside _ := hseq
  idleOutside _ := rfl
  quietOutside _ := hquiet
  pollingInterval hp := by simp_all
  intervalNonzero := by simp_all
  withinCapacity n _ := by simp_all
  responseForm := Q.respond_form fun _ => rfl

/-- An idle UNCONFIGURED port that accepts the CONSTRUCT of a program that is not empty is at row 0 (R112). -/
theorem Port.Inv.accepted (h : P.Inv c) (hph : P.phase = .unconfigured) {w : Word} {dev : DeviceAddress} {sp : SubPort}
    {code : RoleCode} (hd : decode w = .command (.construct dev sp code)) (hl : (prog c code).length ≠ 0) :
    (({ P with cmd := some w } : Port).accepted dev sp).Inv c := by
  obtain ⟨-, -, hrole, hbyte, hdir, hpull, hpol⟩ := h.unconfigured hph
  exact { h with
    unconfigured := nofun
    constructing := fun _ => ⟨w, dev, sp, code, 0, rfl, hd, rfl, rfl, rfl, Nat.pos_of_ne_zero hl, hrole, hbyte, hdir,
      hpull, hpol⟩
    configured := nofun
    seqOutside := fun hc => absurd rfl hc
    idleOutside := fun hc => absurd rfl hc
    quietOutside := fun _ => h.quietOutside (by simp [hph]) }

/-- A command on an idle port of the invariant leaves a port of the invariant. -/
theorem CommandEffect.keeps_inv {ans : Answer} {p : Nat} {i : Instr} {w : Word} {P' : Port} {r : Option BusRecord}
    (h : CommandEffect c ans p i { P with cmd := some w } P' r) (hinv : P.Inv c) (hc : P.cmd = none)
    (hd : decode w = .command i) : P'.Inv c := by
  have idle : P.phase ≠ .constructing := fun hph => hinv.busy_of_constructing hph hc
  cases h with
  | accepted dev sp code _ h hl => exact hinv.accepted (h.resolve_right idle) hd hl
  | emptyProgram dev sp code _ h _ _ =>
    have hquiet : P.phase ≠ .configured := fun hph => by simp [hph] at h
    refine Port.inv_respond_of_end (.inl rfl) rfl ?_ _
    exact hinv.quietOutside hquiet
  | readOk _ dev sp b h => exact (hinv.cache (h.resolve_left idle) b).respond idle fun hn => absurd rfl hn
  | writeOk v _ _ _ h => exact (hinv.cache (h.resolve_left idle) v).respond idle fun _ => rfl
  | toggleOk _ _ _ n b _ _ h => exact (hinv.cache (h.resolve_left idle) _).respond idle fun _ => rfl
  | pollStarted ms _ h hm _ => exact (hinv.startPolling (h.resolve_left idle) hm).respond idle fun _ => rfl
  | pollStopped _ h => exact hinv.stopPolling.respond idle fun _ => rfl
  | subscribed id _ h hcap => exact (hinv.subscribe (h.resolve_left idle) hcap id).respond idle fun _ => rfl
  | _ => exact hinv.respond idle fun _ => rfl

end

/-! ### One port through construction -/

section
variable {c : Config} {P : Port} {w : Word} {k : Nat} {f : Family} {v : Byte}

/-- The fields of a port CONSTRUCTING at row `k` of the word `w`'s program (R113 to R116). -/
structure Port.AtRow (c : Config) (P : Port) (w : Word) (k : Nat) : Prop where
  operands : ∃ dev sp, decode w = .command (.construct dev sp (roleField w)) ∧ P.deviceAddress = some dev ∧
    P.subPort = some sp
  lt : k < (prog c (roleField w)).length
  role : P.role = if k = 0 then none else roleOf (roleField w)
  currentByte : P.currentByte = if k ≠ 0 ∧ roleOf (roleField w) = some .sensorInput then some initialCurrent else none
  directionByte : P.directionByte = if k ≤ 1 then none
    else if roleOf (roleField w) = some .sensorInput then some sensorDirection else some relayDirection
  pullupByte : P.pullupByte = if k ≤ 2 then none else some sensorPullup
  polarityByte : P.polarityByte = none

theorem Port.Inv.atRow (h : P.Inv c) (hph : P.phase = .constructing) (hw : P.cmd = some w) (hk : P.seq = some k) :
    P.AtRow c w k := by
  obtain ⟨w', dev, sp, code, k', hw', hd, hdev, hsp, hk', hlt, hrole, hbyte, hdir, hpull, hpol⟩ := h.constructing hph
  obtain rfl := Option.some.inj (hw'.symm.trans hw)
  obtain rfl := Option.some.inj (hk'.symm.trans hk)
  obtain rfl := roleField_of_decode hd
  exact ⟨⟨dev, sp, hd, hdev, hsp⟩, hlt, hrole, hbyte, hdir, hpull, hpol⟩

theorem prog_length_sensor (c : Config) {code : RoleCode} (h : roleOf code = some .sensorInput) :
    (prog c code).length = 4 := by
  rw [prog_length, h]

theorem prog_length_relay (c : Config) {code : RoleCode} (h : roleOf code = some .relayOutput) :
    (prog c code).length = 3 := by
  rw [prog_length, h]

theorem prog_length_no_role (c : Config) {code : RoleCode} (h : roleOf code = none) : (prog c code).length ≤ 1 := by
  rw [prog_length, h]
  dsimp only
  split_ifs <;> decide

/-- A successful write of a row that is not the last leaves the fields of the next row. -/
theorem Port.AtRow.next (h : P.AtRow c w k) (hg : (prog c (roleField w))[k]? = some (f, v))
    (hl : k + 1 ≠ (prog c (roleField w)).length) : (P.afterConstructionWrite (roleField w) k f v).AtRow c w (k + 1) := by
  obtain ⟨⟨dev, sp, hd, hdev, hsp⟩, hlt, hrole, hbyte, hdir, hpull, hpol⟩ := h
  have hlt' : k + 1 < (prog c (roleField w)).length := by omega
  have hknown : roleOf (roleField w) ≠ none := fun hno => by
    have hle := prog_length_no_role c hno
    omega
  suffices hfields : _ ∧ _ ∧ _ ∧ _ ∧ _ by
    obtain ⟨hrole, hbyte, hdir, hpull, hpol⟩ := hfields
    exact ⟨⟨dev, sp, hd, by simpa using hdev, by simpa using hsp⟩, hlt', hrole, hbyte, hdir, hpull, hpol⟩
  rcases prog_row hg with ⟨rfl, rfl, rfl⟩ | ⟨hr, ⟨rfl, rfl, rfl⟩ | ⟨rfl, rfl, rfl⟩ | ⟨rfl, rfl, rfl⟩⟩ |
    ⟨hr, ⟨rfl, rfl, rfl⟩ | ⟨rfl, rfl, rfl⟩⟩
  case inr.inl.inr.inr => exact absurd (prog_length_sensor c hr).symm hl
  case inr.inr.inr => exact absurd (prog_length_relay c hr).symm hl
  case inl => simp [hknown, hbyte, hdir, hpull, hpol, initialCurrent]
  all_goals simp [hr, hrole, hbyte, hdir, hpull, hpol, sensorDirection, relayDirection, sensorPullup]

/-- A successful write of a recognised role's last row leaves the fields of a CONFIGURED port (R117, R118). -/
theorem Port.AtRow.configuredFields (h : P.AtRow c w k) (hg : (prog c (roleField w))[k]? = some (f, v))
    (hl : k + 1 = (prog c (roleField w)).length) (hknown : roleOf (roleField w) ≠ none) :
    (P.afterConstructionWrite (roleField w) k f v).ConfiguredFields := by
  obtain ⟨⟨dev, sp, -, hdev, hsp⟩, -, hrole, hbyte, hdir, hpull, hpol⟩ := h
  rcases prog_row hg with ⟨rfl, rfl, rfl⟩ | ⟨hr, hrow⟩ | ⟨hr, hrow⟩
  · obtain hr | hr := (roleOf_ne_none.mp hknown).imp roleOf_eq_sensorInput.mpr roleOf_eq_relayOutput.mpr
    · exact absurd (hl.trans (prog_length_sensor c hr)) (by decide)
    · exact absurd (hl.trans (prog_length_relay c hr)) (by decide)
  · rw [prog_length_sensor c hr] at hl
    obtain ⟨rfl, -⟩ | ⟨rfl, -⟩ | ⟨rfl, rfl, rfl⟩ := hrow
    · cases hl
    · cases hl
    · simp [Port.ConfiguredFields, hr, hdev, hsp, hrole, hbyte, hdir, hpull, sensorPolarity]
  · rw [prog_length_relay c hr] at hl
    obtain ⟨rfl, -⟩ | ⟨rfl, rfl, rfl⟩ := hrow
    · cases hl
    · simp [Port.ConfiguredFields, hr, hdev, hsp, hrole, hdir, hpull, hpol]

/-- A successful write of a row that is not the last keeps the invariant. -/
theorem Port.Inv.constructGoesOn (h : P.Inv c) (hph : P.phase = .constructing) (hw : P.cmd = some w)
    (hk : P.seq = some k) (hg : (prog c (roleField w))[k]? = some (f, v)) (hl : k + 1 ≠ (prog c (roleField w)).length) :
    (P.afterConstructionWrite (roleField w) k f v).Inv c := by
  obtain ⟨⟨dev, sp, hd, hdev, hsp⟩, hlt, hrole, hbyte, hdir, hpull, hpol⟩ := (h.atRow hph hw hk).next hg hl
  have hphase := (P.afterConstructionWrite_phase (roleField w) k f v).trans hph
  constructor
  case constructing =>
    exact fun _ => ⟨w, dev, sp, roleField w, k + 1, by simpa using hw, hd, hdev, hsp, by simp, hlt, hrole, hbyte, hdir,
      hpull, hpol⟩
  case unconfigured | configured => exact fun hc => by simp [hph] at hc
  case seqOutside | idleOutside => exact fun hc => absurd hphase hc
  case quietOutside => simpa using h.quietOutside
  case pollingInterval => simpa using h.pollingInterval
  case intervalNonzero => simpa using h.intervalNonzero
  case withinCapacity => simpa using h.withinCapacity
  case responseForm => simpa using h.responseForm

end

/-- A ready move of a port of the invariant leaves a port of the invariant. -/
theorem StepEffect.keeps_inv {c : Config} {ans : Answer} {offer : Option Word} {a : Move} {P P' : Port}
    {r : Option BusRecord} {e : Events} (h : StepEffect c ans offer a P P' r e) (hinv : P.Inv c)
    (hidle : a = .command a.port → P.cmd = none) : P'.Inv c := by
  cases h with
  | illegal p _ w why _ _ =>
    exact hinv.respond (fun hph => hinv.busy_of_constructing hph (hidle rfl)) fun _ => rfl
  | command _ _ _ _ _ _ _ hd h => exact h.keeps_inv hinv (hidle rfl) hd
  | constructFailed _ _ _ _ _ _ _ _ hph =>
    refine Port.inv_respond_of_end (.inl rfl) rfl ?_ _
    exact hinv.quietOutside (by simp [hph])
  | constructGoesOn _ _ _ _ _ _ _ _ hph hw hk hg _ _ _ hl => exact hinv.constructGoesOn hph hw hk hg hl
  | constructed _ _ _ _ _ _ _ _ hph hw hk hg _ _ _ hl hr =>
    refine Port.inv_respond_of_end (.inr ⟨rfl, ?_⟩) rfl ?_ _
    · exact (hinv.atRow hph hw hk).configuredFields hg hl hr
    · simpa using hinv.quietOutside (by simp [hph])
  | unrecognised _ _ _ _ _ _ _ _ hph =>
    refine Port.inv_respond_of_end (.inl rfl) rfl ?_ _
    simpa using hinv.quietOutside (by simp [hph])
  | tickFailed | tickSame => exact hinv
  | tickChanged _ _ _ b _ _ ht =>
    obtain ⟨hph, -, -⟩ := Port.tickEnabled_iff.mp ht
    exact hinv.cache hph b

/-! ### The logs -/

/-- The levels of a change event lie inside its mask, inverted or not (R93, R148). -/
theorem emittedLevels_and_not_mask (invert : Bool) (new old : Byte) :
    emittedLevels invert new (diffBytes new old) &&& ~~~(diffBytes new old).mask = 0x00 := by
  cases invert with
  | false => exact diffBytes_levels_and_not_mask new old
  | true =>
    show (~~~new &&& (diffBytes new old).mask) &&& ~~~(diffBytes new old).mask = 0x00
    rw [BitVec.and_assoc, BitVec.and_not_self]
    exact BitVec.and_zero

/-- A move's events are of its own port, the change event with a mask that is not 0 and levels inside it, the error event
with the status TRANSPORT. -/
theorem StepEffect.events_form {c : Config} {ans : Answer} {offer : Option Word} {a : Move} {P P' : Port}
    {r : Option BusRecord} {e : Events} (h : StepEffect c ans offer a P P' r e) :
    (∀ x ∈ e.change, x.mask ≠ 0x00 ∧ x.levels &&& ~~~x.mask = 0x00 ∧ x.port = a.port) ∧
      ∀ x ∈ e.error, x.status = .transport ∧ x.port = a.port := by
  cases h with
  | tickFailed => exact ⟨nofun, fun x hx => by obtain rfl := Option.some.inj hx; exact ⟨rfl, rfl⟩⟩
  | tickChanged p _ old b dev sp _ _ _ _ _ hb =>
    refine ⟨fun x hx => ?_, nofun⟩
    obtain rfl := Option.some.inj hx
    exact ⟨fun hmask => hb (BitVec.xor_eq_zero_iff.mp hmask), emittedLevels_and_not_mask _ _ _, rfl⟩
  | _ => exact ⟨nofun, nofun⟩

/-- What holds of a list and of the entry a step may append holds of the longer list. -/
theorem forall_mem_append_toList {α : Type} {I : α → Prop} {l l' : List α} {x : Option α} (hl' : l' = l ++ x.toList)
    (hl : ∀ y ∈ l, I y) (hx : ∀ y ∈ x, I y) : ∀ y ∈ l', I y := by
  subst hl'
  intro y hy
  obtain hy | hy := List.mem_append.mp hy
  · exact hl y hy
  · exact hx y (Option.mem_toList.mp hy)

/-- Settles O52: a step waits, or one port moves by an effect that keeps its invariant and adds allowed log entries. -/
theorem stepKeepsInvariant : Obligations.StepKeepsInvariant := by
  intro s t hs h
  obtain ⟨-, rfl⟩ | ⟨a, d, P, P', r, e, -, hr, hP, he, hafter⟩ := step_moves h
  · exact hs
  have hcfg : t.cfg = s.cfg := hafter.cfg
  have hlen : t.ports.length = s.ports.length := by rw [hafter.ports, List.length_set]
  have hport : a.port < s.ports.length := (List.getElem?_eq_some_iff.mp hP).1
  have hidle : a = .command a.port → P.cmd = none := fun ha => by
    obtain ⟨Q, w, hQ, hc, -⟩ := State.ready_command.mp (ha ▸ hr)
    rwa [Option.some.inj (hP.symm.trans hQ)]
  have hP' : P'.Inv s.cfg := he.keeps_inv (hs.ports P (List.mem_of_getElem? hP)) hidle
  obtain ⟨hchange, herror⟩ := he.events_form
  constructor
  case ports =>
    rw [hcfg, hafter.ports]
    intro Q hQ
    obtain hQ | rfl := List.mem_or_eq_of_mem_set hQ
    · exact hs.ports Q hQ
    · exact hP'
  case count => rw [hlen, hcfg, hs.count]
  case busTrace =>
    rw [hcfg, hlen]
    refine forall_mem_append_toList hafter.busTrace hs.busTrace fun x hx => ?_
    obtain rfl := Option.mem_def.mp hx
    exact ⟨he.record_allowed, he.record_port ▸ hport⟩
  case changeLog =>
    rw [hlen]
    refine forall_mem_append_toList hafter.changeLog hs.changeLog fun x hx => ?_
    obtain ⟨hmask, hlevels, hp⟩ := hchange x hx
    exact ⟨hmask, hlevels, hp ▸ hport⟩
  case errorLog =>
    rw [hlen]
    refine forall_mem_append_toList hafter.errorLog hs.errorLog fun x hx => ?_
    obtain ⟨hst, hp⟩ := herror x hx
    exact ⟨hst, hp ▸ hport⟩

end Sys2Proof.Machine
end

section
/-! Ports do not touch one another (R180, R57, R67), and no state of the invariant stops (R22): an effect is what its
move answers, so a move's outcome for its port is a function of what the effect speaks of. -/

namespace Sys2Proof.Machine

/-! ### What a move leaves alone -/

/-- The oracle's future loses one answer with a transaction, and none without. -/
theorem State.After.takesOneAnswer {s t : State} {p : Nat} {P' : Port} {r : Option BusRecord} {e : Events}
    (h : s.After t p P' r e) : TakesOneAnswer s t := by
  have htrace := h.busTrace
  have hanswers := h.answers
  have hdraws := h.draws
  cases r with
  | none => exact ⟨fun _ => ⟨hanswers, hdraws⟩, fun hne => absurd (htrace.trans (List.append_nil _)) hne⟩
  | some r =>
    refine ⟨fun heq => by simp [htrace] at heq, fun _ => ⟨fun x rest hs => ?_, fun hs => ?_⟩⟩
    · simpa [State.dropAnswer, hs] using And.intro hanswers hdraws
    · simpa [State.dropAnswer, hs] using And.intro hanswers hdraws

theorem State.withEffect_active (s : State) (p : Nat) (P' : Port) (r : Option BusRecord) :
    (s.withEffect p P' r).active = s.active := by
  cases r <;> simp [State.withEffect]

/-- Settles O46: the frame of an effect, for a move and for a command's meaning. -/
theorem otherInstancesUntouched : Obligations.OtherInstancesUntouched := by
  refine ⟨fun a s t hx => ?move, fun i s t hx => ?command⟩
  case move =>
    obtain ⟨-, rfl⟩ | ⟨P, P', r, e, -, -, hafter⟩ := perform_effect hx
    · exact ⟨rfl, rfl, rfl, rfl, fun _ _ => rfl, fun _ => ⟨rfl, rfl⟩, fun hne => absurd rfl hne⟩
    · exact ⟨hafter.cfg, by rw [hafter.ports, List.length_set], hafter.plan, hafter.transportReady,
        fun _ hq => hafter.port?_of_ne hq, hafter.takesOneAnswer⟩
  case command =>
    have hoffers := exec_offers hx
    obtain ⟨P, P', r, -, -, rfl⟩ := exec_effect hx
    have hafter := s.withEffect_after s.active P' r
    exact ⟨hafter.cfg, s.withEffect_active _ _ _, hoffers, hafter.plan, hafter.transportReady,
      fun _ hq => hafter.port?_of_ne hq, hafter.takesOneAnswer⟩

/-! ### A move answers each of its effects -/

/-- A command answers each of its effects. -/
theorem CommandEffect.exec_eq {i : Instr} {s : State} {P P' : Port} {r : Option BusRecord}
    (h : CommandEffect s.cfg s.nextAnswer s.active i P P' r) (hP : s.port? s.active = some P) :
    exec i s = .next (s.withEffect s.active P' r) := by
  cases h with
  | portFailed _ _ h =>
    exact (exec_portFailed hP h i).trans (congrArg _ (s.setPort_respond_violation (st := .portFailed) rfl P).symm)
  | notConfigured _ _ h hi =>
    exact (exec_notConfigured hP h hi).trans (congrArg _ (s.setPort_respond_violation (st := .notConfigured) rfl P).symm)
  | alreadyConfigured dev sp code _ h => exact execConstruct_next.mpr ⟨P, hP, .inr (.inl ⟨h, rfl⟩)⟩
  | accepted dev sp code _ h hl => exact execConstruct_next.mpr ⟨P, hP, .inr (.inr (.inl ⟨h, hl, rfl⟩))⟩
  | emptyProgram dev sp code _ h hl hr => exact execConstruct_next.mpr ⟨P, hP, .inr (.inr (.inr ⟨h, hl, hr, rfl⟩))⟩
  | readFailed _ dev sp h hd hs ha =>
    exact execReadPort_next.mpr ⟨P, hP, .inr (.inr ⟨h, dev, sp, hd, hs, .inl ⟨ha, rfl⟩⟩)⟩
  | readOk _ dev sp b h hd hs ha =>
    exact execReadPort_next.mpr ⟨P, hP, .inr (.inr ⟨h, dev, sp, hd, hs, .inr ⟨b, ha, rfl⟩⟩)⟩
  | writeFailed v _ dev sp h hd hs ha =>
    exact execWritePort_next.mpr ⟨P, hP, .inr (.inr ⟨h, State.writeGpio_next.mpr ⟨dev, sp, hd, hs, .inl ⟨ha, rfl⟩⟩⟩)⟩
  | writeOk v _ dev sp h hd hs ha =>
    exact execWritePort_next.mpr ⟨P, hP, .inr (.inr ⟨h, State.writeGpio_next.mpr ⟨dev, sp, hd, hs, .inr ⟨ha, rfl⟩⟩⟩)⟩
  | pinOutOfRange pin a _ h hp => exact execToggleRelay_next.mpr ⟨P, hP, .inr (.inr ⟨h, .inl ⟨hp, rfl⟩⟩)⟩
  | unsupportedOnSensor pin a _ n h hp hr =>
    exact execToggleRelay_next.mpr ⟨P, hP, .inr (.inr ⟨h, .inr ⟨n, hp, .inl ⟨hr, rfl⟩⟩⟩)⟩
  | toggleFailed pin a _ n b dev sp h hp hr hb hd hs ha =>
    exact execToggleRelay_next.mpr ⟨P, hP, .inr (.inr ⟨h, .inr ⟨n, hp, .inr ⟨hr, b, hb,
      State.writeGpio_next.mpr ⟨dev, sp, hd, hs, .inl ⟨ha, rfl⟩⟩⟩⟩⟩)⟩
  | toggleOk pin a _ n b dev sp h hp hr hb hd hs ha =>
    exact execToggleRelay_next.mpr ⟨P, hP, .inr (.inr ⟨h, .inr ⟨n, hp, .inr ⟨hr, b, hb,
      State.writeGpio_next.mpr ⟨dev, sp, hd, hs, .inr ⟨ha, rfl⟩⟩⟩⟩⟩)⟩
  | invalidInterval _ h => exact execPollStart_next.mpr ⟨P, hP, .inr (.inr ⟨h, .inl ⟨rfl, rfl⟩⟩)⟩
  | alreadyPolling ms _ h hm hp => exact execPollStart_next.mpr ⟨P, hP, .inr (.inr ⟨h, .inr (.inl ⟨hm, hp, rfl⟩)⟩)⟩
  | pollStarted ms _ h hm hp => exact execPollStart_next.mpr ⟨P, hP, .inr (.inr ⟨h, .inr (.inr ⟨hm, hp, rfl⟩)⟩)⟩
  | pollStopped _ h => exact execPollStop_next.mpr ⟨P, hP, .inr (.inr ⟨h, rfl⟩)⟩
  | overflow id _ h hcap => exact execSubscribe_next.mpr ⟨P, hP, .inr (.inr ⟨h, .inl ⟨hcap, rfl⟩⟩)⟩
  | subscribed id _ h hcap => exact execSubscribe_next.mpr ⟨P, hP, .inr (.inr ⟨h, .inr ⟨hcap, rfl⟩⟩)⟩

/-- The fields of a port after its transaction, if there was one. -/
theorem State.port?_withEffect {s : State} {p : Nat} {P : Port} (hP : s.port? p = some P) (P' : Port)
    (r : Option BusRecord) : (s.withEffect p P' r).port? p = some P' :=
  (s.withEffect_after p P' r).port?_self hP

/-- A move answers a next state with the fields of each of its effects. -/
theorem StepEffect.perform_next {s : State} {a : Move} {P P' : Port} {r : Option BusRecord} {e : Events}
    (h : StepEffect s.cfg s.nextAnswer (s.offered a.port) a P P' r e) (hP : s.port? a.port = some P) :
    ∃ t, perform a s = .next t ∧ t.port? a.port = some P' := by
  have hset : ∀ r Q, ((s.record r).setPort a.port Q).port? a.port = some Q := State.port?_setPort_record hP
  cases h with
  | illegal p _ w why ho hd =>
    exact ⟨_, commandStep_next.mpr ⟨P, hP, .inr ⟨w, ho, .inl ⟨why, hd, rfl⟩⟩⟩,
      State.port?_setPort_self (State.port?_accept hP w) _⟩
  | command p _ _ w i r ho hd h =>
    have hP' := State.port?_accept hP w
    have hx := CommandEffect.exec_eq (s := s.accept p P w) (by simpa using h) hP'
    exact ⟨_, (perform_command hP ho hd).trans hx, State.port?_withEffect hP' _ r⟩
  | constructFailed p _ w k f v dev sp hph hw hk hg hd hs ha =>
    exact ⟨_, constructionStep_next.mpr ⟨P, hP, .inr ⟨Port.sequencerEnabled_of_row hph hw hk hg, w, k, hw, hk, f, v, dev,
      sp, hg, hd, hs, .inl ⟨ha, rfl⟩⟩⟩, hset _ _⟩
  | constructGoesOn p _ w k f v dev sp hph hw hk hg hd hs ha hl =>
    exact ⟨_, constructionStep_next.mpr ⟨P, hP, .inr ⟨Port.sequencerEnabled_of_row hph hw hk hg, w, k, hw, hk, f, v, dev,
      sp, hg, hd, hs, .inr (.inl ⟨ha, hl, rfl⟩)⟩⟩, hset _ _⟩
  | constructed p _ w k f v dev sp hph hw hk hg hd hs ha hl hr =>
    exact ⟨_, constructionStep_next.mpr ⟨P, hP, .inr ⟨Port.sequencerEnabled_of_row hph hw hk hg, w, k, hw, hk, f, v, dev,
      sp, hg, hd, hs, .inr (.inr ⟨ha, hl, State.finishConstruction_next.mpr (.inl ⟨hr, rfl⟩)⟩)⟩⟩, hset _ _⟩
  | unrecognised p _ w k f v dev sp hph hw hk hg hd hs ha hl hr =>
    exact ⟨_, constructionStep_next.mpr ⟨P, hP, .inr ⟨Port.sequencerEnabled_of_row hph hw hk hg, w, k, hw, hk, f, v, dev,
      sp, hg, hd, hs, .inr (.inr ⟨ha, hl, State.finishConstruction_next.mpr (.inr ⟨hr, rfl⟩)⟩)⟩⟩, hset _ _⟩
  | tickFailed p _ old dev sp ht ho hd hs ha =>
    exact ⟨_, tick_next.mpr ⟨P, hP, .inr ⟨ht, old, dev, sp, ho, hd, hs, .inl ⟨ha, rfl⟩⟩⟩,
      by simpa [State.port?] using hP⟩
  | tickSame p _ b dev sp ht ho hd hs ha =>
    refine ⟨_, tick_next.mpr ⟨P, hP, .inr ⟨ht, b, dev, sp, ho, hd, hs, .inr ⟨b, ha, .inl ⟨rfl, rfl⟩⟩⟩⟩, ?_⟩
    rw [Port.currentByte_self ho]
    exact hset _ _
  | tickChanged p _ old b dev sp ht ho hd hs ha hb =>
    exact ⟨_, tick_next.mpr ⟨P, hP, .inr ⟨ht, old, dev, sp, ho, hd, hs, .inr ⟨b, ha, .inr ⟨hb, rfl⟩⟩⟩⟩, hset _ _⟩

/-! ### Non-interference -/

/-- If one state's move has an effect on its port, every state that agrees on what the effect speaks of gives the port the
same fields. -/
theorem StepEffect.port?_eq {c : Config} {ans : Answer} {offer : Option Word} {s t : State} {a : Move} {P P' : Port}
    {r : Option BusRecord} {e : Events} (h : StepEffect c ans offer a P P' r e) (hc : s.cfg = c) (ha : s.nextAnswer = ans)
    (ho : s.offered a.port = offer) (hP : s.port? a.port = some P) (hx : perform a s = .next t) :
    t.port? a.port = some P' := by
  subst hc ha ho
  obtain ⟨t', hx', hP'⟩ := h.perform_next hP
  rwa [Host.Outcome.next.inj (hx.symm.trans hx')]

/-- Settles O47: both moves leave their port as it was, or one of them has an effect, which is then the other's too. -/
theorem instancesDoNotCommunicate : Obligations.InstancesDoNotCommunicate := by
  intro a s₁ s₂ t₁ t₂ hcfg hport hoffer hanswer h₁ h₂
  obtain ⟨-, rfl⟩ | ⟨P, P', r, e, hP, he, hafter⟩ := perform_effect h₁
  · obtain ⟨-, rfl⟩ | ⟨P, P', r, e, hP, he, hafter⟩ := perform_effect h₂
    · exact hport
    · exact (he.port?_eq hcfg hanswer hoffer (hport.trans hP) h₁).trans (hafter.port?_self hP).symm
  · exact (hafter.port?_self hP).trans (he.port?_eq hcfg.symm hanswer.symm hoffer.symm (hport.symm.trans hP) h₂).symm

/-! ### Construction steps of two ports -/

/-- A construction step does not look at the offered word, nor at the byte of the oracle's answer. -/
theorem StepEffect.construct_congr {c : Config} {ans ans' : Answer} {offer offer' : Option Word} {p : Nat} {P P' : Port}
    {r : Option BusRecord} {e : Events} (h : StepEffect c ans offer (.construct p) P P' r e)
    (ho : busOutcome ans' = busOutcome ans) : StepEffect c ans' offer' (.construct p) P P' r e := by
  cases h with
  | constructFailed _ _ w k f v dev sp hph hw hk hg hd hs ha =>
    exact .constructFailed p P w k f v dev sp hph hw hk hg hd hs (ho.trans ha)
  | constructGoesOn _ _ w k f v dev sp hph hw hk hg hd hs ha hl =>
    exact .constructGoesOn p P w k f v dev sp hph hw hk hg hd hs (ho.trans ha) hl
  | constructed _ _ w k f v dev sp hph hw hk hg hd hs ha hl hr =>
    exact .constructed p P w k f v dev sp hph hw hk hg hd hs (ho.trans ha) hl hr
  | unrecognised _ _ w k f v dev sp hph hw hk hg hd hs ha hl hr =>
    exact .unrecognised p P w k f v dev sp hph hw hk hg hd hs (ho.trans ha) hl hr

/-- What a construction step does to its port depends on the parameters, the port's fields and the write's outcome. -/
theorem perform_construct_port?_eq {s s' t t' : State} {p : Nat} (hcfg : s.cfg = s'.cfg) (hport : s.port? p = s'.port? p)
    (ho : busOutcome s.nextAnswer = busOutcome s'.nextAnswer) (h : perform (.construct p) s = .next t)
    (h' : perform (.construct p) s' = .next t') : t.port? p = t'.port? p := by
  obtain ⟨-, rfl⟩ | ⟨P, P', r, e, hP, he, hafter⟩ := perform_effect h
  · obtain ⟨-, rfl⟩ | ⟨P, P', r, e, hP, he, hafter⟩ := perform_effect h'
    · exact hport
    · exact ((he.construct_congr ho).port?_eq hcfg rfl rfl (hport.trans hP) h).trans (hafter.port?_self hP).symm
  · exact (hafter.port?_self hP).trans
      ((he.construct_congr ho.symm).port?_eq hcfg.symm rfl rfl (hport.symm.trans hP) h').symm

/-- Settles O48: each port's step meets the same parameters, fields and outcome in both orders. -/
theorem constructionStepsInterleave : Obligations.ConstructionStepsInterleave := by
  intro s s₁ t₁ s₂ t₂ p q hne hp hpq hq hqp hok
  obtain ⟨frame, -⟩ := otherInstancesUntouched
  obtain ⟨hcfg₁, -, -, -, hothers₁, -⟩ := frame _ _ _ hp
  obtain ⟨-, -, -, -, hothers₁', -⟩ := frame _ _ _ hpq
  obtain ⟨hcfg₂, -, -, -, hothers₂, -⟩ := frame _ _ _ hq
  obtain ⟨-, -, -, -, hothers₂', -⟩ := frame _ _ _ hqp
  have same : ∀ x ∈ [s₁, s₂], busOutcome s.nextAnswer = busOutcome x.nextAnswer := fun x hx =>
    (hok s (by simp)).trans (hok x (List.mem_cons_of_mem s hx)).symm
  refine List.ext_getElem? fun j => ?_
  by_cases hjp : j = p
  · subst hjp
    exact (hothers₁' j hne).trans
      (perform_construct_port?_eq hcfg₂.symm (hothers₂ j hne).symm (same s₂ (by simp)) hp hqp)
  by_cases hjq : j = q
  · subst hjq
    exact ((hothers₂' j hjp).trans
      (perform_construct_port?_eq hcfg₁.symm (hothers₁ j hjp).symm (same s₁ (by simp)) hq hpq)).symm
  · exact (hothers₁' j hjq).trans ((hothers₁ j hjp).trans ((hothers₂' j hjp).trans (hothers₂ j hjq)).symm)

/-! ### Progress -/

/-- A CONFIGURED port has an effect for every command: the fields a rule reads have values (R22). -/
theorem Port.ConfiguredFields.exists_effect {P : Port} (h : P.ConfiguredFields) (hph : P.phase = .configured) (c : Config)
    (ans : Answer) (p : Nat) (i : Instr) : ∃ P' r, CommandEffect c ans p i P P' r := by
  obtain ⟨hdev, hsp, hbyte, hrole⟩ := h
  obtain ⟨dev, hd⟩ := Option.ne_none_iff_exists'.mp hdev
  obtain ⟨sp, hs⟩ := Option.ne_none_iff_exists'.mp hsp
  obtain ⟨b, hb⟩ := Option.ne_none_iff_exists'.mp hbyte
  cases i with
  | construct dev' sp' code => exact ⟨_, _, .alreadyConfigured dev' sp' code _ hph⟩
  | readPort =>
    cases ha : ans with
    | fail => exact ⟨_, _, .readFailed _ dev sp (.inr hph) hd hs rfl⟩
    | ok x => exact ⟨_, _, .readOk _ dev sp x (.inr hph) hd hs rfl⟩
  | writePort v =>
    cases ha : busOutcome ans with
    | fail => exact ⟨_, _, .writeFailed v _ dev sp (.inr hph) hd hs ha⟩
    | ok => exact ⟨_, _, .writeOk v _ dev sp (.inr hph) hd hs ha⟩
  | toggleRelay pin a =>
    cases hp : pinIndex pin with
    | none => exact ⟨_, _, .pinOutOfRange pin a _ (.inr hph) hp⟩
    | some n =>
      obtain ⟨hr, -⟩ | ⟨hr, -⟩ := hrole
      · exact ⟨_, _, .unsupportedOnSensor pin a _ n (.inr hph) hp hr⟩
      · cases ha : busOutcome ans with
        | fail => exact ⟨_, _, .toggleFailed pin a _ n b dev sp (.inr hph) hp hr hb hd hs ha⟩
        | ok => exact ⟨_, _, .toggleOk pin a _ n b dev sp (.inr hph) hp hr hb hd hs ha⟩
  | pollStart ms =>
    by_cases hm : ms = 0
    · exact hm ▸ ⟨_, _, .invalidInterval _ (.inr hph)⟩
    · cases hpoll : P.polling with
      | true => exact ⟨_, _, .alreadyPolling ms _ (.inr hph) hm hpoll⟩
      | false => exact ⟨_, _, .pollStarted ms _ (.inr hph) hm hpoll⟩
  | pollStop => exact ⟨_, _, .pollStopped _ (.inr hph)⟩
  | subscribe id =>
    by_cases hcap : c.maxSubscribers = some P.subscribers.length
    · exact ⟨_, _, .overflow id _ (.inr hph) hcap⟩
    · exact ⟨_, _, .subscribed id _ (.inr hph) hcap⟩

/-- A port that is not CONSTRUCTING, and has its fields if it is CONFIGURED, has an effect for every command. -/
theorem exists_commandEffect {P : Port} (hph : P.phase ≠ .constructing)
    (hfields : P.phase = .configured → P.ConfiguredFields) (c : Config) (ans : Answer) (p : Nat) (i : Instr) :
    ∃ P' r, CommandEffect c ans p i P P' r := by
  cases hphase : P.phase with
  | failed => exact ⟨_, _, .portFailed i P hphase⟩
  | constructing => exact absurd hphase hph
  | configured => exact (hfields hphase).exists_effect hphase c ans p i
  | unconfigured =>
    cases i with
    | construct dev sp code =>
      by_cases hl : (prog c code).length = 0
      · exact ⟨_, _, .emptyProgram dev sp code P (.inl hphase) hl (roleOf_eq_none.mpr (prog_length_eq_zero hl).2)⟩
      · exact ⟨_, _, .accepted dev sp code P (.inl hphase) hl⟩
    | _ => exact ⟨_, _, .notConfigured _ P hphase nofun⟩

/-- A port CONSTRUCTING under the invariant has an effect for its construction step. -/
theorem Port.Inv.exists_constructEffect {c : Config} {P : Port} (h : P.Inv c) (hph : P.phase = .constructing)
    (ans : Answer) (offer : Option Word) (p : Nat) : ∃ P' r e, StepEffect c ans offer (.construct p) P P' r e := by
  obtain ⟨w, -, -, -, k, hw, -, -, -, hk, -⟩ := h.constructing hph
  obtain ⟨⟨dev, sp, -, hd, hs⟩, hlt, -⟩ := h.atRow hph hw hk
  have hg := List.getElem?_eq_getElem hlt
  cases ha : busOutcome ans with
  | fail => exact ⟨_, _, _, .constructFailed p P w k _ _ dev sp hph hw hk hg hd hs ha⟩
  | ok =>
    by_cases hl : k + 1 = (prog c (roleField w)).length
    · by_cases hr : roleOf (roleField w) = none
      · exact ⟨_, _, _, .unrecognised p P w k _ _ dev sp hph hw hk hg hd hs ha hl hr⟩
      · exact ⟨_, _, _, .constructed p P w k _ _ dev sp hph hw hk hg hd hs ha hl hr⟩
    · exact ⟨_, _, _, .constructGoesOn p P w k _ _ dev sp hph hw hk hg hd hs ha hl⟩

/-- An enabled tick of a located port with a cached byte has an effect. -/
theorem exists_tickEffect {c : Config} {P : Port} {b : Byte} {dev : DeviceAddress} {sp : SubPort}
    (ht : P.tickEnabled = true) (hb : P.currentByte = some b) (hd : P.deviceAddress = some dev) (hs : P.subPort = some sp)
    (ans : Answer) (offer : Option Word) (p : Nat) : ∃ P' r e, StepEffect c ans offer (.tick p) P P' r e := by
  cases ha : ans with
  | fail => exact ⟨_, _, _, .tickFailed p P b dev sp ht hb hd hs rfl⟩
  | ok x =>
    by_cases hx : x = b
    · exact ⟨_, _, _, .tickSame p P x dev sp ht (hx ▸ hb) hd hs rfl⟩
    · exact ⟨_, _, _, .tickChanged p P b x dev sp ht hb hd hs rfl hx⟩

/-- A ready move of a port of the invariant has an effect, whatever the oracle answers. -/
theorem State.exists_effect_of_ready {s : State} {a : Move} (hs : ∀ P ∈ s.ports, P.Inv s.cfg) (hr : s.ready a = true)
    (ans : Answer) : ∃ P P' r e, s.port? a.port = some P ∧ StepEffect s.cfg ans (s.offered a.port) a P P' r e := by
  cases a with
  | command p =>
    obtain ⟨P, w, hP, hc, ho⟩ := State.ready_command.mp hr
    cases hd : decode w with
    | illegal why => exact ⟨P, _, _, _, hP, .illegal p P w why ho hd⟩
    | command i =>
      have hinv := hs P (List.mem_of_getElem? hP)
      obtain ⟨P', r, h⟩ := exists_commandEffect (P := { P with cmd := some w })
        (fun hph => hinv.busy_of_constructing hph hc) hinv.configured s.cfg ans p i
      exact ⟨P, P', r, _, hP, .command p P P' w i r ho hd h⟩
  | construct p =>
    obtain ⟨P, hP, he⟩ := State.ready_construct.mp hr
    obtain ⟨P', r, e, h⟩ := (hs P (List.mem_of_getElem? hP)).exists_constructEffect (Port.sequencerEnabled_phase he) ans
      (s.offered p) p
    exact ⟨P, P', r, e, hP, h⟩
  | tick p =>
    obtain ⟨P, hP, ht⟩ := State.ready_tick.mp hr
    obtain ⟨hph, -, -⟩ := Port.tickEnabled_iff.mp ht
    obtain ⟨hdev, hsp, hbyte, -⟩ := (hs P (List.mem_of_getElem? hP)).configured hph
    obtain ⟨dev, hd⟩ := Option.ne_none_iff_exists'.mp hdev
    obtain ⟨sp, hs⟩ := Option.ne_none_iff_exists'.mp hsp
    obtain ⟨b, hb⟩ := Option.ne_none_iff_exists'.mp hbyte
    obtain ⟨P', r, e, h⟩ := exists_tickEffect ht hb hd hs ans (s.offered p) p
    exact ⟨P, P', r, e, hP, h⟩

/-- Settles O53: nothing is ready and the system waits, or the chosen ready move has an effect, which it answers. -/
theorem invariantStatesStepOn : Obligations.InvariantStatesStepOn := by
  intro s hs
  obtain ⟨a, d, -, hr, hstep⟩ | ⟨-, hstep⟩ := step_cases s
  · obtain ⟨P, P', r, e, hP, he⟩ := State.exists_effect_of_ready hs.ports hr (s.afterChoice d).nextAnswer
    obtain ⟨t, hx, -⟩ := StepEffect.perform_next (s := s.afterChoice d) he hP
    exact ⟨t, hstep.trans hx⟩
  · exact ⟨s, hstep⟩

end Sys2Proof.Machine
end

section
/-! Poll ticks one after another (R149, R162, R197, R198): a successful tick caches the byte read and logs the change set
against the byte cached before it. -/

namespace Sys2Proof.Machine

/-! ### One successful tick -/

/-- The change event of a tick that reads `b` against the cached byte `old` (R148, R151). -/
def readChange (c : Config) (p : Nat) (P : Port) (old b : Byte) : Option ChangeEvent :=
  if b = old then none else some ⟨p, b ^^^ old, emittedLevels c.emitInvert b (diffBytes b old), P.subscribers⟩

@[simp] theorem readChange_self (c : Config) (p : Nat) (P : Port) (b : Byte) : readChange c p P b b = none := if_pos rfl

theorem readChange_of_ne {old b : Byte} (h : b ≠ old) (c : Config) (p : Nat) (P : Port) :
    ∃ e : ChangeEvent, readChange c p P old b = some e ∧ e.port = p ∧ e.mask = b ^^^ old ∧ e.delivered = P.subscribers :=
  ⟨_, if_neg h, rfl, rfl, rfl⟩

/-- The new byte is the old one with the bits of the mask turned over (R104, R162). -/
theorem xor_xor_cancel_left (old b : Byte) : old ^^^ (b ^^^ old) = b := by
  rw [BitVec.xor_comm b old, ← BitVec.xor_assoc, BitVec.xor_self, BitVec.zero_xor]

/-- A tick that reads a byte caches it, and logs the change set if there is one. -/
theorem StepEffect.tick_read {c : Config} {offer : Option Word} {p : Nat} {P P' : Port} {r : Option BusRecord}
    {e : Events} {old b : Byte} (h : StepEffect c (.ok b) offer (.tick p) P P' r e) (ho : P.currentByte = some old) :
    r.isSome = true ∧ P' = { P with currentByte := some b } ∧ e = { change := readChange c p P old b } := by
  cases h with
  | tickFailed _ _ _ _ _ _ _ _ _ ha => cases ha
  | tickSame _ _ b' _ _ _ ho' _ _ ha =>
    cases ha
    obtain rfl := Option.some.inj (ho'.symm.trans ho)
    exact ⟨rfl, (Port.currentByte_self ho).symm, by rw [readChange_self]⟩
  | tickChanged _ _ old' b' _ _ _ ho' _ _ ha hb =>
    cases ha
    obtain rfl := Option.some.inj (ho'.symm.trans ho)
    exact ⟨rfl, rfl, by rw [readChange, if_neg hb]⟩

/-- Everything a tick can do when the next answer is a byte: nothing if it is not ready, else the read. -/
theorem perform_tick_read {s t : State} {p : Nat} {P : Port} {old b : Byte} (hP : s.port? p = some P)
    (ho : P.currentByte = some old) (ha : s.nextAnswer = .ok b) (h : perform (.tick p) s = .next t) :
    (s.ready (.tick p) = false ∧ t = s) ∨
      ∃ r, s.After t p { P with currentByte := some b } (some r) { change := readChange s.cfg p P old b } := by
  obtain hidle | ⟨Q, Q', r, e, hQ, he, hafter⟩ := perform_effect h
  · exact .inl hidle
  obtain rfl := Option.some.inj (hP.symm.trans hQ)
  rw [ha] at he
  obtain ⟨hr, rfl, rfl⟩ := he.tick_read ho
  obtain ⟨r, rfl⟩ := Option.isSome_iff_exists.mp hr
  exact .inr ⟨r, hafter⟩

/-- A ready tick finds a cached byte. -/
theorem perform_tick_cached {s t : State} {p : Nat} (hr : s.ready (.tick p) = true) (h : perform (.tick p) s = .next t) :
    ∃ P old, s.port? p = some P ∧ P.currentByte = some old := by
  obtain ⟨P, hP, ⟨hn, -⟩ | ⟨-, old, -, -, ho, -⟩⟩ := tick_next.mp h
  · obtain ⟨Q, hQ, ht⟩ := State.ready_tick.mp hr
    obtain rfl := Option.some.inj (hP.symm.trans hQ)
    exact absurd (ht.symm.trans hn) (by simp)
  · exact ⟨P, old, hP, ho⟩

/-- A tick that reads the cached byte logs nothing and leaves the ports as they were (R149, R151). -/
theorem perform_tick_same {s t : State} {p : Nat} {P : Port} {b : Byte} (hP : s.port? p = some P)
    (hb : P.currentByte = some b) (ha : s.nextAnswer = .ok b) (h : perform (.tick p) s = .next t) :
    t.changeLog = s.changeLog ∧ t.errorLog = s.errorLog ∧ t.ports = s.ports := by
  obtain ⟨-, rfl⟩ | ⟨r, hafter⟩ := perform_tick_read hP hb ha h
  · exact ⟨rfl, rfl, rfl⟩
  · rw [readChange_self] at hafter
    obtain ⟨hchange, herror⟩ := hafter.logs_of_no_events
    refine ⟨hchange, herror, ?_⟩
    rw [hafter.ports, Port.currentByte_self hb, State.ports_set_self hP]

/-- A ready tick that reads another byte logs one event, of the bits that differ (R148). -/
theorem perform_tick_differs {s t : State} {p : Nat} {P : Port} {old b : Byte} (hr : s.ready (.tick p) = true)
    (hP : s.port? p = some P) (ho : P.currentByte = some old) (hb : b ≠ old) (ha : s.nextAnswer = .ok b)
    (h : perform (.tick p) s = .next t) :
    ∃ e : ChangeEvent, t.changeLog = s.changeLog ++ [e] ∧ e.port = p ∧ e.mask = b ^^^ old := by
  obtain ⟨hn, -⟩ | ⟨r, hafter⟩ := perform_tick_read hP ho ha h
  · exact absurd (hr.symm.trans hn) (by simp)
  · obtain ⟨e, hchange, hport, hmask, -⟩ := readChange_of_ne hb s.cfg p P
    exact ⟨e, by rw [hafter.changeLog, hchange]; rfl, hport, hmask⟩

/-- Settles O35: the byte read is cached, and the event's mask is the exclusive or of the two bytes. -/
theorem changeEventsRecoverTheBytes : Obligations.ChangeEventsRecoverTheBytes := by
  intro s t p P P' old b hr hP ho ha h hP'
  obtain ⟨hn, -⟩ | ⟨r, hafter⟩ := perform_tick_read hP ho ha h
  · exact absurd (hr.symm.trans hn) (by simp)
  obtain rfl := Option.some.inj (hP'.symm.trans (hafter.port?_self hP))
  refine ⟨rfl, ?_⟩
  by_cases hb : b = old
  · exact .inl ⟨(perform_tick_same hP (hb ▸ ho) ha h).1, hb⟩
  · obtain ⟨e, hchange, hport, hmask⟩ := perform_tick_differs hr hP ho hb ha h
    refine .inr ⟨e, hchange, hport, ?_, ?_⟩
    · rw [hmask, xor_xor_cancel_left]
    · rw [← hmask]
      exact changeEntries_length _ _

/-! ### The baseline a command leaves -/

/-- A command on a CONFIGURED port that issues a successful GPIO write of `v` caches `v` and logs nothing. -/
theorem State.writeGpio_caches {s t : State} {p : Nat} {P : Port} {v : Byte} (hP : s.port? p = some P)
    (hok : busOutcome s.nextAnswer = .ok) (h : s.writeGpio p P v = .next t) :
    t.changeLog = s.changeLog ∧ ∃ Q, t.port? p = some Q ∧ Q.currentByte = some v := by
  obtain ⟨dev, sp, -, -, ⟨hfail, -⟩ | ⟨-, rfl⟩⟩ := State.writeGpio_next.mp h
  · exact absurd (hok.symm.trans hfail) (by simp)
  · exact ⟨by simp, _, State.port?_setPort_record hP _ _, rfl⟩

/-- A READ_PORT on a CONFIGURED port that reads `b` caches `b` and logs nothing. -/
theorem exec_readPort_caches {s t : State} {P : Port} {b : Byte} (hP : s.port? s.active = some P)
    (hph : P.phase = .configured) (ha : s.nextAnswer = .ok b) (h : exec .readPort s = .next t) :
    t.changeLog = s.changeLog ∧ ∃ Q, t.port? s.active = some Q ∧ Q.currentByte = some b := by
  obtain ⟨Q, hQ, ⟨hf, -⟩ | ⟨hu, -⟩ | ⟨-, dev, sp, -, -, ⟨hfail, -⟩ | ⟨x, hx, rfl⟩⟩⟩ := execReadPort_next.mp h
  all_goals obtain rfl := Option.some.inj (hP.symm.trans hQ)
  · simp [hph] at hf
  · simp [hph] at hu
  · simp [ha] at hfail
  · obtain rfl := Answer.ok.inj (ha.symm.trans hx)
    exact ⟨by simp, _, State.port?_setPort_record hP _ _, rfl⟩

/-- WRITE_PORT on a CONFIGURED port is a GPIO write of its value. -/
theorem execWritePort_configured {s : State} {P : Port} (hP : s.port? s.active = some P) (hph : P.phase = .configured)
    (v : Byte) : execWritePort v s = s.writeGpio s.active P v := by
  rw [execWritePort, State.withPort_of_port? hP, State.requireConfigured_configured hph]

/-- Settles O34: the first step leaves the byte it read or wrote in the cache, and the tick compares with that. -/
theorem sameByteTwiceEmitsOnce : Obligations.SameByteTwiceEmitsOnce := by
  refine ⟨fun s t u p b hr ha h ha' h' => ?ticks, fun s t u b P hP hph ha h ha' h' => ?readPort,
    fun s t u i nb b P hP hph hi hok h ha' hr h' => ?written⟩
  case ticks =>
    obtain ⟨P, old, hP, ho⟩ := perform_tick_cached hr h
    obtain ⟨hn, -⟩ | ⟨r, hafter⟩ := perform_tick_read hP ho ha h
    · exact absurd (hr.symm.trans hn) (by simp)
    · exact perform_tick_same (hafter.port?_self hP) rfl ha' h'
  case readPort =>
    obtain ⟨hlog, Q, hQ, hb⟩ := exec_readPort_caches hP hph ha h
    obtain ⟨hchange, -⟩ := perform_tick_same hQ hb ha' h'
    exact hchange.trans hlog
  case written =>
    have hwrite : s.writeGpio s.active P nb = .next t := by
      obtain rfl | ⟨pin, asserted, c, rfl, hrole, h1, h8, hc, rfl⟩ := hi
      · exact (execWritePort_configured hP hph nb).symm.trans h
      · exact (execToggleRelay_relay asserted hP hph ⟨h1, h8⟩ hrole hc).symm.trans h
    obtain ⟨hlog, Q, hQ, hnb⟩ := State.writeGpio_caches hP hok hwrite
    rw [← hlog]
    constructor
    · rintro rfl
      obtain ⟨hchange, -⟩ := perform_tick_same hQ hnb ha' h'
      exact hchange
    · exact fun hne => perform_tick_differs hr hQ hnb hne ha' h'

/-! ### Any number of ticks -/

/-- A planned tick with a scripted byte on an initialised transport. -/
theorem step_tick_read {s : State} {p : Nat} {P : Port} {old b : Byte} {dev : DeviceAddress} {sp : SubPort}
    {rest : List Move} {answers : List Answer} (hP : s.port? p = some P) (ht : P.tickEnabled = true)
    (ho : P.currentByte = some old) (hd : P.deviceAddress = some dev) (hs : P.subPort = some sp) (hT : s.TransportReady)
    (hpl : s.plan = .tick p :: rest) (ha : s.answers = .ok b :: answers) :
    ∃ u, step s = .next u ∧ u.port? p = some { P with currentByte := some b } ∧ u.TransportReady ∧ u.plan = rest ∧
      u.answers = answers ∧ u.changeLog = s.changeLog ++ (readChange s.cfg p P old b).toList := by
  have hr : s.ready (.tick p) = true := State.ready_tick.mpr ⟨P, hP, ht⟩
  obtain ⟨P', r, e, he⟩ := exists_tickEffect (c := s.cfg) ht ho hd hs (State.nextAnswer { s with plan := rest })
    (s.offered p) p
  obtain ⟨u, hx, -⟩ := StepEffect.perform_next (s := { s with plan := rest }) (a := .tick p) he hP
  obtain ⟨hn, -⟩ | ⟨r, hafter⟩ := perform_tick_read (s := { s with plan := rest }) hP ho
    (State.nextAnswer_of_script hT ha) hx
  · exact absurd (((State.ready_congr rfl rfl rfl _).trans hr).symm.trans hn) (by simp)
  · refine ⟨u, (step_plan hpl hr).trans hx, hafter.port?_self hP, hafter.transportReady.trans hT, hafter.plan, ?_,
      hafter.changeLog⟩
    simpa [State.dropAnswer, ha] using hafter.answers

/-- What the events logged against the byte `old` while `bytes` are read say: they replay the distinct consecutive bytes,
and each has the pins of its mask. -/
def Replays (p : Nat) (subscribers : List Byte) (old : Byte) (bytes : List Byte) (events : List ChangeEvent) : Prop :=
  List.scanl (fun b (e : ChangeEvent) => b ^^^ e.mask) old events = (old :: bytes).destutter (· ≠ ·) ∧
    ∀ e ∈ events, e.port = p ∧ e.delivered = subscribers ∧ e.mask ≠ 0x00 ∧ e.entries.length = popcount e.mask

/-- One more byte before the others: the cached byte again adds no event, another byte the event of its change set. -/
theorem Replays.cons {c : Config} {p : Nat} {P : Port} {old b : Byte} {bytes : List Byte} {events : List ChangeEvent}
    (h : Replays p P.subscribers b bytes events) :
    Replays p P.subscribers old (b :: bytes) ((readChange c p P old b).toList ++ events) := by
  obtain ⟨hscan, hevents⟩ := h
  rw [List.destutter_cons'] at hscan
  by_cases hb : b = old
  · subst hb
    rw [readChange_self]
    refine ⟨?_, hevents⟩
    rw [List.destutter_cons', List.destutter'_cons, if_neg (not_not_intro rfl)]
    exact hscan
  · obtain ⟨e, he, hport, hmask, hdelivered⟩ := readChange_of_ne hb c p P
    rw [he]
    constructor
    · rw [List.destutter_cons', List.destutter'_cons, if_pos (Ne.symm hb), ← hscan]
      simp [List.scanl_cons, hmask]
    · intro x hx
      obtain rfl | hx := List.mem_cons.mp hx
      · exact ⟨hport, hdelivered, fun h0 => hb (BitVec.xor_eq_zero_iff.mp (hmask ▸ h0)), changeEntries_length _ _⟩
      · exact hevents x hx

/-- Settles O36, by induction on the bytes: each tick caches its byte, which is the next one's baseline. -/
theorem polledBytesReplay : Obligations.PolledBytesReplay := by
  intro bytes
  induction bytes with
  | nil =>
    intro s p P old dev sp rest answers hP hph hpoll hc ho hd hs hT hpl ha
    exact ⟨s, P, [], rfl, hP, ho, (List.append_nil _).symm, rfl, nofun⟩
  | cons b bytes ih =>
    intro s p P old dev sp rest answers hP hph hpoll hc ho hd hs hT hpl ha
    obtain ⟨u, hx, hu, hT', hpl', ha', hlog⟩ :=
      step_tick_read hP (Port.tickEnabled_iff.mpr ⟨hph, hpoll, hc⟩) ho hd hs hT hpl ha
    obtain ⟨t, P', events, hrun, ht, hbyte, hlog', hreplay⟩ :=
      ih u p _ b dev sp rest answers hu hph hpoll hc rfl hd hs hT' hpl' ha'
    refine ⟨t, P', (readChange s.cfg p P old b).toList ++ events, (run_succ_of_next hx).trans hrun, ht, ?_, ?_,
      Replays.cons (P := P) hreplay⟩
    · rw [List.getLastD_cons, hbyte]
    · rw [hlog', hlog, List.append_assoc]

end Sys2Proof.Machine
end

section
/-! Accepted constructions end under weak fairness (R114, R121, R173): a port at a row of its program stays ready until
that row's step goes, and there are only so many rows. -/

namespace Sys2Proof.Machine

theorem IsRun.inv {run : Nat → State} (hrun : IsRun run) (h0 : (run 0).Inv) (n : Nat) : (run n).Inv := by
  induction n with
  | zero => exact h0
  | succ n ih => exact stepKeepsInvariant _ _ ih (hrun n)

section
variable {s t : State} {p : Nat} {P : Port} {w : Word} {dev : DeviceAddress} {sp : SubPort} {k : Nat}

/-- The step from `s` to `t` takes row `k` of the construction of port `p`: its write fails, lets the next row follow, or
ends the construction. -/
def RowTaken (s t : State) (p : Nat) (P : Port) (w : Word) (dev : DeviceAddress) (sp : SubPort) (k : Nat) : Prop :=
  ∃ f v, (prog s.cfg (roleField w))[k]? = some (f, v) ∧
    ((t.ownTrace p = s.ownTrace p ++ [rowWrite s.cfg p dev sp .fail (f, v)] ∧ t.port? p = some P.constructionFailed) ∨
      (t.ownTrace p = s.ownTrace p ++ [rowWrite s.cfg p dev sp .ok (f, v)] ∧
        t.port? p = some (if k + 1 ≠ (prog s.cfg (roleField w)).length then P.afterConstructionWrite (roleField w) k f v
          else (P.afterConstructionWrite (roleField w) k f v).finished (roleField w))))

/-- A port CONSTRUCTING under the invariant is at a row of its program. -/
theorem Port.Inv.sequencing (h : P.Inv s.cfg) (hP : s.port? p = some P) (hph : P.phase = .constructing)
    (hw : P.cmd = some w) : ∃ dev sp k, s.Sequencing p P w dev sp k ∧ k < (prog s.cfg (roleField w)).length := by
  obtain ⟨-, -, -, -, k, -, -, -, -, hk, -⟩ := h.constructing hph
  obtain ⟨⟨dev, sp, -, hdev, hsp⟩, hlt, -⟩ := h.atRow hph hw hk
  exact ⟨dev, sp, k, ⟨hP, hph, hk, hw, hdev, hsp⟩, hlt⟩

/-- A port at a row of its program has its construction step ready. -/
theorem State.Sequencing.instanceReady (h : s.Sequencing p P w dev sp k) (hlt : k < (prog s.cfg (roleField w)).length) :
    s.instanceReady p :=
  ⟨.construct p, rfl, h.ready (List.getElem?_eq_getElem hlt)⟩

/-- A construction step moves its port off the row it was at. -/
theorem StepEffect.construct_seq_ne {c : Config} {ans : Answer} {offer : Option Word} {P' : Port} {r : Option BusRecord}
    {e : Events} (h : StepEffect c ans offer (.construct p) P P' r e) : P'.seq ≠ P.seq := by
  cases h with
  | constructFailed _ _ _ _ _ _ _ _ _ _ hk | constructed _ _ _ _ _ _ _ _ _ _ hk | unrecognised _ _ _ _ _ _ _ _ _ _ hk =>
    simp [hk]
  | constructGoesOn _ _ _ _ _ _ _ _ _ _ hk => simp [hk]

/-- The only ready move of a port at a row of its program is its construction step (R111). -/
theorem State.Sequencing.eq_construct {a : Move} (h : s.Sequencing p P w dev sp k) (hp : a.port = p)
    (hr : s.ready a = true) : a = .construct p := by
  subst hp
  cases a with
  | command q => exact absurd (hr.symm.trans (State.ready_command_of_busy h.holds h.busy)) (by simp)
  | construct q => rfl
  | tick q => exact absurd (hr.symm.trans (State.ready_tick_of_busy h.holds h.busy)) (by simp)

/-- When the arbiter takes a move of a port at a row of its program, the row is taken. -/
theorem State.Sequencing.taken_of_chosen {a : Move} (h : s.Sequencing p P w dev sp k)
    (hx : Sys2Proof.Machine.step s = .next t) (hp : a.port = p) (hchosen : s.chosen = some a) :
    RowTaken s t p P w dev sp k := by
  refine (h.step hx).resolve_left fun ⟨hsame, _⟩ => ?_
  obtain ⟨hnone, -⟩ | ⟨b, d, Q, Q', r, e, hb, hr, hQ, he, hafter⟩ := step_moves hx
  · exact absurd (hnone.symm.trans hchosen) (by simp)
  obtain rfl := Option.some.inj (hchosen.symm.trans hb)
  obtain rfl := h.eq_construct hp hr
  obtain rfl := Option.some.inj (h.holds.symm.trans hQ)
  obtain rfl := Option.some.inj (hsame.symm.trans (hafter.port?_self hQ))
  exact he.construct_seq_ne rfl

end

/-! ### Along a weakly fair run -/

section
variable {run : Nat → State} {p : Nat} {w : Word} {dev : DeviceAddress} {sp : SubPort}

theorem IsRun.cfg_eq (hrun : IsRun run) (n : Nat) : (run n).cfg = (run 0).cfg := by
  induction n with
  | zero => rfl
  | succ n ih => exact (step_cfg (hrun n)).trans ih

/-- A row that is next is taken: until then its port stays as it is, with the step ready (R173). -/
theorem IsRun.row_taken (hrun : IsRun run) (hfair : WeaklyFair run) {n k : Nat} {P : Port}
    (h : (run n).Sequencing p P w dev sp k) (hlt : k < (prog (run 0).cfg (roleField w)).length) :
    ∃ m, n ≤ m ∧ (run m).Sequencing p P w dev sp k ∧ RowTaken (run m) (run (m + 1)) p P w dev sp k := by
  by_contra hnever
  have hstays : ∀ m, n ≤ m → (run m).Sequencing p P w dev sp k := fun m hm => by
    induction m, hm using Nat.le_induction with
    | base => exact h
    | succ m hm ih =>
      obtain ⟨hsame, -⟩ | htaken := ih.step (hrun m)
      · exact ⟨hsame, h.phase, h.seq, h.cmd, h.deviceAddress, h.subPort⟩
      · exact absurd ⟨m, hm, ih, htaken⟩ hnever
  obtain ⟨hinstances, -⟩ := hfair
  obtain ⟨m, a, hm, hp, hchosen⟩ := hinstances p n fun m hm => (hstays m hm).instanceReady (hrun.cfg_eq m ▸ hlt)
  exact hnever ⟨m, hm, hstays m hm, (hstays m hm).taken_of_chosen (hrun m) hp hchosen⟩

/-- Port `p` has ended the construction of the word `w`: FAILED, with a failed transaction in the bus trace, or finished
for its role. -/
def ConstructionEnded (s : State) (p : Nat) (w : Word) : Prop :=
  ∃ P', s.port? p = some P' ∧
    ((P'.phase = .failed ∧ ∃ r ∈ s.busTrace, r.outcome = .fail) ∨ ∃ Q : Port, P' = Q.finished (roleField w))

/-- A construction with at most `d` rows left ends, by induction on `d`. -/
theorem IsRun.construction_ends (hrun : IsRun run) (hfair : WeaklyFair run) (d : Nat) {n k : Nat} {P : Port}
    (h : (run n).Sequencing p P w dev sp k) (hlt : k < (prog (run 0).cfg (roleField w)).length)
    (hd : (prog (run 0).cfg (roleField w)).length ≤ k + d) : ∃ m, n ≤ m ∧ ConstructionEnded (run m) p w := by
  induction d generalizing n k P with
  | zero => omega
  | succ d ih =>
    obtain ⟨m, hm, hseq, f, v, hg, ⟨htrace, hport⟩ | ⟨-, hport⟩⟩ := hrun.row_taken hfair h hlt
    · have hmem : rowWrite (run m).cfg p dev sp .fail (f, v) ∈ (run (m + 1)).ownTrace p := by simp [htrace]
      exact ⟨m + 1, by omega, _, hport, .inl ⟨rfl, _, List.mem_of_mem_filter hmem, rfl⟩⟩
    · rw [hrun.cfg_eq m] at hport
      split_ifs at hport with hl
      · obtain ⟨m', hm', hend⟩ := ih (hseq.next (roleField w) f v hport) (by omega) (by omega)
        exact ⟨m', by omega, hend⟩
      · exact ⟨m + 1, by omega, _, hport, .inr ⟨_, rfl⟩⟩

/-- An accepted construction of a run of the invariant ends under weak fairness. -/
theorem IsRun.exists_constructionEnded (hrun : IsRun run) (hfair : WeaklyFair run) (h0 : (run 0).Inv) {n : Nat} {P : Port}
    (hP : (run n).port? p = some P) (hph : P.phase = .constructing) (hw : P.cmd = some w) :
    ∃ m, n ≤ m ∧ ConstructionEnded (run m) p w := by
  obtain ⟨dev, sp, k, hseq, hlt⟩ := ((hrun.inv h0 n).ports P (List.mem_of_getElem? hP)).sequencing hP hph hw
  rw [hrun.cfg_eq n] at hlt
  exact hrun.construction_ends hfair _ hseq hlt (Nat.le_add_left _ k)

end

theorem Port.finished_phase (P : Port) (code : RoleCode) :
    (P.finished code).phase = if roleOf code ≠ none then .configured else .failed := by
  unfold Port.finished
  split_ifs <;> rfl

/-- Settles O54: a finished construction is CONFIGURED or FAILED, by its role. -/
theorem constructionEnds : Obligations.ConstructionEnds := by
  intro run hrun hfair h0 n p P hP hph
  obtain ⟨w, -, -, -, -, hw, -⟩ := ((hrun.inv h0 n).ports P (List.mem_of_getElem? hP)).constructing hph
  obtain ⟨m, hm, P', hP', ⟨hf, -⟩ | ⟨Q, rfl⟩⟩ := hrun.exists_constructionEnded hfair h0 hP hph hw
  · exact ⟨m, P', hm, hP', .inr hf⟩
  · refine ⟨m, _, hm, hP', ?_⟩
    rw [Port.finished_phase]
    split_ifs
    · exact .inl rfl
    · exact .inr rfl

/-- Settles O55: without a failed transaction the construction has finished, and its role is a recognised one. -/
theorem reliableConstructionSucceeds : Obligations.ReliableConstructionSucceeds := by
  intro run hrun hfair h0 hreliable n p P w hP hph hw hrole
  obtain ⟨m, hm, P', hP', ⟨-, r, hr, hfail⟩ | ⟨Q, rfl⟩⟩ := hrun.exists_constructionEnded hfair h0 hP hph hw
  · exact absurd ((hreliable m r hr).symm.trans hfail) (by simp)
  · exact ⟨m, _, hm, hP', (Q.finished_phase _).trans (if_pos hrole)⟩

end Sys2Proof.Machine
end

section
/-! Operand refusals and the contract of a host (R90, R168, R185), from the status a command's effect answers with. -/

namespace Sys2Proof.Machine

/-- The statuses of a refused operand: an unrecognised role (R119), a pin outside 1..8 (R128), an interval of 0 (R141). -/
def Status.RefusesOperand (st : Status) : Prop := st = .invalidRole ∨ st = .pinOutOfRange ∨ st = .invalidInterval

/-- A command that names an unrecognised role is not well-formed (R119). -/
theorem wellFormed_construct_of_no_role {code : RoleCode} (h : roleOf code = none) (dev : DeviceAddress) (sp : SubPort) :
    (Instr.construct dev sp code).wellFormed = false := by
  obtain rfl | rfl := roleOf_eq_none.mp h <;> rfl

theorem wellFormed_toggleRelay {pin : BitVec 4} {a : Bool} :
    (Instr.toggleRelay pin a).wellFormed = false ↔ ¬(1 ≤ pin.toNat ∧ pin.toNat ≤ 8) := decide_eq_false_iff_not

/-- A pin without an index is not well-formed (R128). -/
theorem wellFormed_toggleRelay_of_no_index {pin : BitVec 4} (h : pinIndex pin = none) (a : Bool) :
    (Instr.toggleRelay pin a).wellFormed = false :=
  wellFormed_toggleRelay.mpr fun hpin => pinIndex_ne_none.mpr hpin h

theorem wellFormed_pollStart {ms : Interval} : (Instr.pollStart ms).wellFormed = false ↔ ms = 0 := by
  simp [Instr.wellFormed]

/-- A command answers with a status that refuses an operand only if it is not well-formed; or it is a CONSTRUCT the
sequencer will answer. -/
theorem CommandEffect.operand_refused {c : Config} {ans : Answer} {p : Nat} {i : Instr} {P P' : Port}
    {r : Option BusRecord} (h : CommandEffect c ans p i P P' r) :
    P'.cmd = P.cmd ∨ ∃ st data, P'.response = some (responseWord st data) ∧
      (st.RefusesOperand → i.wellFormed = false) := by
  cases h with
  | accepted => exact .inl rfl
  | emptyProgram dev sp code _ _ _ hr => exact .inr ⟨_, _, rfl, fun _ => wellFormed_construct_of_no_role hr dev sp⟩
  | pinOutOfRange pin a _ _ hp => exact .inr ⟨_, _, rfl, fun _ => wellFormed_toggleRelay_of_no_index hp a⟩
  | invalidInterval => exact .inr ⟨_, _, rfl, fun _ => rfl⟩
  | _ => exact .inr ⟨_, _, rfl, fun hst => absurd hst (by simp [Status.RefusesOperand])⟩

/-- A response word of INVALID_ROLE, PIN_OUT_OF_RANGE or INVALID_INTERVAL refuses an operand (R167). -/
theorem Status.refusesOperand_of_word {st : Status} {data : Byte} {word : ResponseWord} (h : responseWord st data = word)
    (hword : word = 0x1000#16 ∨ word = 0x6000#16 ∨ word = 0x9000#16) : st.RefusesOperand := by
  have hcode := responseWord_status st data
  rw [h] at hcode
  obtain rfl | rfl | rfl := hword <;> cases st <;> simp_all [Status.code, Status.RefusesOperand]

/-- Settles O49: only a command that is not well-formed has an effect that refuses an operand, and on a CONFIGURED port
each of the three such commands is refused. -/
theorem operandRefusals : Obligations.OperandRefusals := by
  refine ⟨fun i s t P P' hwf hP hbusy h hP' hidle => ?accepted, fun i s P hwf hP hph => ?refused⟩
  case accepted =>
    obtain ⟨Q, Q', r, hQ, he, rfl⟩ := exec_effect h
    obtain rfl := Option.some.inj (hP.symm.trans hQ)
    obtain rfl := Option.some.inj (hP'.symm.trans (State.port?_withEffect hQ Q' r))
    obtain hcmd | ⟨st, data, hresponse, hrefuses⟩ := he.operand_refused
    · exact absurd (hcmd.symm.trans hidle) hbusy
    have hno : ∀ word, word = 0x1000#16 ∨ word = 0x6000#16 ∨ word = 0x9000#16 → P'.response ≠ some word := by
      intro word hword heq
      have hst := Status.refusesOperand_of_word (Option.some.inj (hresponse.symm.trans heq)) hword
      exact absurd ((hrefuses hst).symm.trans hwf) (by simp)
    exact ⟨hno _ (by simp), hno _ (by simp), hno _ (by simp)⟩
  case refused =>
    cases i with
    | construct dev sp code =>
      obtain ⟨-, hconfigured, -⟩ := constructMeaning s P dev sp code hP
      exact ⟨_, hconfigured hph, rfl⟩
    | toggleRelay pin a =>
      obtain ⟨-, -, hpin, -⟩ := toggleRelayMeaning s P pin a hP
      exact ⟨_, hpin hph (wellFormed_toggleRelay.mp hwf), rfl⟩
    | pollStart ms =>
      obtain ⟨-, -, hms, -⟩ := pollStartMeaning s P ms hP
      exact ⟨_, hms hph (wellFormed_pollStart.mp hwf), rfl⟩
    | readPort | writePort _ | pollStop | subscribe _ => cases hwf

/-- The contract of a host for one command on a port with the fields `P` (R168, R185). -/
def InContract (c : Config) (P : Port) : Instr → Prop
  | .construct _ _ _ => P.phase = .unconfigured
  | .readPort => P.phase = .configured
  | .writePort _ => P.phase = .configured
  | .toggleRelay pin _ => P.phase = .configured ∧ 1 ≤ pin.toNat ∧ pin.toNat ≤ 8 ∧ P.role = some .relayOutput
  | .pollStart ms => P.phase = .configured ∧ ms ≠ 0 ∧ P.polling = false
  | .pollStop => P.phase = .configured
  | .subscribe _ => P.phase = .configured ∧ c.maxSubscribers ≠ some P.subscribers.length

/-- Inside the contract the port's phase is the one the command is for. -/
theorem InContract.phase {c : Config} {P : Port} {i : Instr} (h : InContract c P i) :
    (P.phase = .unconfigured ∧ ∃ dev sp code, i = .construct dev sp code) ∨
      (P.phase = .configured ∧ ∀ dev sp code, i ≠ .construct dev sp code) := by
  cases i with
  | construct dev sp code => exact .inl ⟨h, dev, sp, code, rfl⟩
  | readPort | writePort | pollStop => exact .inr ⟨h, nofun⟩
  | toggleRelay | pollStart | subscribe =>
    obtain ⟨hph, -⟩ := h
    exact .inr ⟨hph, nofun⟩

/-- Inside the contract a command answers OK, INVALID_ROLE or TRANSPORT, or not yet; none of them sets `violation`. -/
theorem CommandEffect.violation_eq {c : Config} {ans : Answer} {p : Nat} {i : Instr} {P P' : Port} {r : Option BusRecord}
    (h : CommandEffect c ans p i P P' r) (hin : InContract c P i) : P'.violation = P.violation := by
  cases h with
  | portFailed _ _ h => obtain ⟨hph, -⟩ | ⟨hph, -⟩ := hin.phase <;> simp [hph] at h
  | notConfigured _ _ h hi =>
    obtain ⟨-, dev, sp, code, rfl⟩ | ⟨hph, -⟩ := hin.phase
    · exact absurd rfl (hi dev sp code)
    · simp [hph] at h
  | alreadyConfigured _ _ _ _ h => exact absurd (hin.symm.trans h) (by simp)
  | pinOutOfRange _ _ _ _ hp =>
    obtain ⟨-, h1, h8, -⟩ := hin
    exact absurd hp (pinIndex_ne_none.mpr ⟨h1, h8⟩)
  | unsupportedOnSensor _ _ _ _ _ _ hr =>
    obtain ⟨-, -, -, hrelay⟩ := hin
    exact absurd (hr.symm.trans hrelay) (by simp)
  | invalidInterval =>
    obtain ⟨-, hms, -⟩ := hin
    exact absurd rfl hms
  | alreadyPolling _ _ _ _ hp =>
    obtain ⟨-, -, hpoll⟩ := hin
    exact absurd (hp.symm.trans hpoll) (by simp)
  | overflow _ _ _ hcap =>
    obtain ⟨-, hroom⟩ := hin
    exact absurd hcap hroom
  | accepted => rfl
  | _ => simp [violationAfter, Status.setsViolation, Port.accepted]

/-- Settles O50: the statuses that set `violation` are those of the effects outside the contract. -/
theorem contractKeepsViolationClear : Obligations.ContractKeepsViolationClear := by
  intro i s t P P' hP h hP' hin
  obtain ⟨Q, Q', r, hQ, he, rfl⟩ := exec_effect h
  obtain rfl := Option.some.inj (hP.symm.trans hQ)
  obtain rfl := Option.some.inj (hP'.symm.trans (State.port?_withEffect hQ Q' r))
  have hin' : InContract s.cfg P i := by cases i <;> exact hin
  exact he.violation_eq hin'

end Sys2Proof.Machine
end

section
/-! The Register Map and the transport's calls (R56, R60), the command step (R110), the arbiter's freedom (R146, R173). -/

namespace Sys2Proof.Machine

/-! ### The Register Map -/

/-- The eleven register families in the order of R56's table. -/
def familyTable : List Family :=
  [.iodir, .ipol, .gpinten, .defval, .intcon, .iocon, .gppu, .intf, .intcap, .gpio, .olat]

theorem mem_familyTable (f : Family) : f ∈ familyTable := by
  cases f <;> decide

/-- With IOCON.BANK = 0 the families' A and B addresses alternate, in the order of the table (R56). -/
theorem addr_bankZeroMap (f : Family) (sp : SubPort) :
    (bankZeroMap.addr f sp).toNat = 2 * familyTable.idxOf f + sp.toBit.toNat := by
  cases f <;> cases sp <;> rfl

theorem toNat_toBit_inj {sp sp' : SubPort} (h : sp.toBit.toNat = sp'.toBit.toNat) : sp = sp' := by
  cases sp <;> cases sp' <;> simp_all [SubPort.toBit]

/-- Two registers of one address are the same family's and sub-port's. -/
theorem addr_bankZeroMap_inj {f f' : Family} {sp sp' : SubPort} (h : bankZeroMap.addr f sp = bankZeroMap.addr f' sp') :
    f = f' ∧ sp = sp' := by
  have haddr := congrArg BitVec.toNat h
  rw [addr_bankZeroMap, addr_bankZeroMap] at haddr
  have hbit := sp.toBit.toNat_lt
  have hbit' := sp'.toBit.toNat_lt
  exact ⟨(List.idxOf_inj (mem_familyTable f)).mp (by omega), toNat_toBit_inj (by omega)⟩

/-- Settles O12: an address is twice the family's place in the table, plus one for B. -/
theorem defaultRegisterMap : Obligations.DefaultRegisterMap := by
  refine ⟨fun f => ?_, fun f sp f' sp' => addr_bankZeroMap_inj, fun f sp => ?_, rfl, rfl, rfl, rfl, rfl⟩
  · cases f <;> rfl
  · have hplace : familyTable.idxOf f < 11 := List.idxOf_lt_length_of_mem (mem_familyTable f)
    have hbit := sp.toBit.toNat_lt
    rw [BitVec.le_def, addr_bankZeroMap]
    show _ ≤ 21
    omega

/-! ### Transport calls -/

/-- Settles O13: a transaction adds one record, whose calls are those of its kind. -/
theorem transactionCalls : Obligations.TransactionCalls := fun s p dev reg v =>
  ⟨⟨⟨p, .write, dev, reg, some v, busOutcome s.nextAnswer⟩, s.record_busTrace _, rfl, rfl⟩,
    ⟨⟨p, .read, dev, reg, busByte s.nextAnswer, busOutcome s.nextAnswer⟩, s.record_busTrace _, rfl, rfl⟩⟩

/-! ### Steps -/

/-- A command issues at most one transaction (R110). -/
theorem exec_busTrace_length {i : Instr} {s t : State} (h : exec i s = .next t) :
    t.busTrace.length ≤ s.busTrace.length + 1 := by
  obtain ⟨P, P', -, rfl | ⟨r, -, rfl⟩⟩ := exec_next_shape h
  · exact Nat.le_succ _
  · simp

/-- Settles O15: a planned command step accepts the word, then executes it or answers ILLEGAL_COMMAND. -/
theorem stepRunsDecodedCommand : Obligations.StepRunsDecodedCommand := by
  refine ⟨fun s p P w rest hpl hP hc ho => ⟨fun i hd => ?command, fun why hd => step_illegal hpl hP hc ho hd⟩,
    fun i s t h => exec_busTrace_length h⟩
  case command =>
    exact (step_plan hpl (State.ready_command.mpr ⟨P, w, hP, hc, ho⟩)).trans
      (perform_command (s := { s with plan := rest }) hP ho hd)

/-- Settles O18: a plan lets any ready move go, and the arbiter takes a ready move or finds none. -/
theorem anyReadyMoveMayGoNext : Obligations.AnyReadyMoveMayGoNext := by
  refine ⟨fun s a rest hr => step_of_planned hr rest, fun s => ?_⟩
  obtain ⟨a, d, -, hr, hstep⟩ | ⟨hnone, hstep⟩ := step_cases s
  · exact .inl ⟨a, d, hr, hstep⟩
  · exact .inr ⟨State.arbitrate_none.mp hnone, hstep⟩

end Sys2Proof.Machine
end
